-- ==== Sys2Proof/Word.lean ====
section
/-! DEFINITION. The words of DPHY-TC: 32-bit command, register and image words, 16-bit immediates and
window offsets, 8-bit fields (00_scope.md R10, 30_encoding.md R90). -/

namespace Sys2Proof

/-- A 32-bit word: a command, a register image, the staging word, RESULT (R10). -/
abbrev Word := BitVec 32

/-- A 16-bit immediate or byte offset into the controller window (R70, R90). -/
abbrev Half := BitVec 16

/-- An 8-bit field (R90, R221). -/
abbrev Byte := BitVec 8

end Sys2Proof
end

