-- ==== Sys2Proof/Syntax.lean ====
section
/-! DEFINITION. The command set: the names the spec gives to counts, intervals, registers and results, and the
fourteen commands of 30_encoding.md R92 with their operands. -/

namespace Sys2Proof

/-- The pixel formats of SETMODE: 16, 18 or 24 bits per pixel, codes 0, 1, 2 (R33, R95).
Code 3 is illegal and has no constructor. -/
inductive PixelFormat where
  | bpp16
  | bpp18
  | bpp24
  deriving DecidableEq, Repr

/-- The video-mode class: 0 non-burst-with-sync, 1 burst (R32, R95). -/
inductive VideoClass where
  | nonBurst
  | burst
  deriving DecidableEq, Repr

/-- The eight nanosecond intervals `T_HS_PREP` .. `T_CLK_EXIT` (R17). -/
inductive Interval where
  | hsPrep
  | hsZero
  | hsTrail
  | hsExit
  | clkPrep
  | clkZero
  | clkTrail
  | clkExit
  deriving DecidableEq, Repr

/-- The eleven computed counts (R17), in the order of their selectors `0x03` .. `0x0D` (R93). -/
inductive Count where
  | hsPrep
  | hsZero
  | hsTrail
  | hsExit
  | clkPrep
  | clkZero
  | clkTrail
  | clkExit
  | lpDiv
  | clkHs2Lp
  | clkLp2Hs
  deriving DecidableEq, Repr

/-- The four timing registers of the controller that the block builds images for (R220), in write order (R225). -/
inductive TimingReg where
  | dphyParam
  | clkLaneTiming
  | lpByteclk
  | clkLaneSwt
  deriving DecidableEq, Repr

/-- What CLROVR clears: one named override, or all eleven (selector `0xFF`) (R94, R202). -/
inductive OvrTarget where
  | one (q : Count)
  | all
  deriving DecidableEq, Repr

/-- The result selectors of RDRES, `0x00` .. `0x1C` (R93). -/
inductive ResultSel where
  | pclk
  | rawDdr
  | ddr
  | count (q : Count)
  | image (r : TimingReg)
  | stg
  | bp
  | interval (q : Interval)
  | ovrMask
  deriving DecidableEq, Repr

/-- The fourteen commands of R92. A count, format, class or result selector is a name here; the operands that
are plain numbers (`lanes`, a raw frequency, a field index) are naturals whose range `Instr.wellFormed` checks. -/
inductive Instr where
  /-- `NOP` (R260). -/
  | nop
  /-- `SETMODE div, fmt, cls, lanes` (R120). -/
  | setmode (div : Byte) (fmt : PixelFormat) (cls : VideoClass) (lanes : Nat)
  /-- `COMPUTE` (R130). -/
  | compute
  /-- `CALCDDR raw`, a raw DDR frequency in MHz (R131). -/
  | calcddr (raw : Nat)
  /-- `SETOVR q, v` (R201). -/
  | setovr (q : Count) (v : Byte)
  /-- `CLROVR q` or `CLROVR ALL` (R202). -/
  | clrovr (target : OvrTarget)
  /-- `PACK` (R223). -/
  | pack
  /-- `WRITE` (R224). -/
  | write
  /-- `SETFLD k, v` (R226). -/
  | setfld (k : Nat) (v : Byte)
  /-- `CLRSTG` (R227). -/
  | clrstg
  /-- `WRSTG off` (R228). -/
  | wrstg (off : Half)
  /-- `RDRES sel` (R261). -/
  | rdres (sel : ResultSel)
  /-- `RDSTAT` (R262). -/
  | rdstat
  /-- `CLRSTAT m` (R263). -/
  | clrstat (m : Byte)
  deriving DecidableEq, Repr

end Sys2Proof
end

