-- ==== Sys2Proof/Config.lean ====
section
/-! DEFINITION. The configuration record `Cfg` of 00_scope.md R7, its admission check R8, and the values the spec
leaves open (the OPEN parameters, and what a 32-bit field keeps of a value that does not fit it). -/

namespace Sys2Proof

/-- `PERIOD_MODE`: whether the byte-clock period is cut to an integer before use (R151). -/
inductive PeriodMode where
  | intPeriod
  | exact
  deriving DecidableEq, Repr

/-- `RM[q]`: how an interval is converted to ticks (R152). -/
inductive RoundMode where
  | ceil
  | nearest
  deriving DecidableEq, Repr

/-- `FIELD_POLICY`: what a byte field keeps of a count above 255 (R222). -/
inductive FieldPolicy where
  | truncate
  | saturate
  deriving DecidableEq, Repr

/-- One value for each of the eight intervals. -/
structure PerInterval (α : Type) where
  hsPrep : α
  hsZero : α
  hsTrail : α
  hsExit : α
  clkPrep : α
  clkZero : α
  clkTrail : α
  clkExit : α
  deriving DecidableEq, Repr

/-- The value of interval `q`. -/
def PerInterval.get {α : Type} (p : PerInterval α) : Interval → α
  | .hsPrep => p.hsPrep
  | .hsZero => p.hsZero
  | .hsTrail => p.hsTrail
  | .hsExit => p.hsExit
  | .clkPrep => p.clkPrep
  | .clkZero => p.clkZero
  | .clkTrail => p.clkTrail
  | .clkExit => p.clkExit

/-- `f` applied to each of the eight values. -/
def PerInterval.map {α β : Type} (f : α → β) (p : PerInterval α) : PerInterval β where
  hsPrep := f p.hsPrep
  hsZero := f p.hsZero
  hsTrail := f p.hsTrail
  hsExit := f p.hsExit
  clkPrep := f p.clkPrep
  clkZero := f p.clkZero
  clkTrail := f p.clkTrail
  clkExit := f p.clkExit

/-- The parameters R7 marks OPEN: the reference clock and the hardware maximum in MHz (natural numbers), and
the 16-bit byte offsets of the four timing registers. -/
structure OpenParams where
  refMhz : Nat
  ddrMax : Nat
  offDphyParam : Half
  offClkLaneTiming : Half
  offLpByteclk : Half
  offClkLaneSwt : Half
  deriving DecidableEq, Repr

/-- `RM` as R152's table gives it: the two prepare intervals to nearest, every other interval up. -/
def defaultRm : PerInterval RoundMode where
  hsPrep := .nearest
  hsZero := .ceil
  hsTrail := .ceil
  hsExit := .ceil
  clkPrep := .nearest
  clkZero := .ceil
  clkTrail := .ceil
  clkExit := .ceil

/-- `BIAS` as R153's table gives it: 2 for the two zero intervals, 1 for the others. -/
def defaultBias : PerInterval Nat where
  hsPrep := 1
  hsZero := 2
  hsTrail := 1
  hsExit := 1
  clkPrep := 1
  clkZero := 2
  clkTrail := 1
  clkExit := 1

/-- The configuration record `Cfg` (R7). A field with a default holds the value the spec takes when nothing else
is said. The source's fixed literals (12, 48, 4000, 500) are definitions of Machine/Ops.lean. -/
structure Cfg extends OpenParams where
  nDir : Nat := 1
  periodMode : PeriodMode := .intPeriod
  rm : PerInterval RoundMode := defaultRm
  bias : PerInterval Nat := defaultBias
  hsExitBase : Nat := 130
  hsExitUi : Nat := 0
  clkPrepBase : Nat := 60
  clkPrepUi : Nat := 0
  clkPzBase : Nat := 330
  clkPzUi : Nat := 0
  clkTrailBase : Nat := 90
  clkTrailUi : Nat := 0
  clkExitBase : Nat := 130
  clkExitUi : Nat := 0
  kHl : Nat := 1
  eHl : Nat := 2
  kLh : Nat := 4
  eLh : Nat := 2
  fieldPolicy : FieldPolicy := .truncate
  deriving DecidableEq, Repr

/-- The configuration that takes the spec's default for every parameter that has one (R7). -/
def Cfg.ofOpen (p : OpenParams) : Cfg := { toOpenParams := p }

/-- R8 on the OPEN parameters, with R7's range `1..65535` of `REF_MHZ`: `DDR_MAX` a multiple of 12 from 12 to 4000,
the four offsets multiples of 4 and pairwise distinct. -/
def OpenParams.admitted (p : OpenParams) : Bool :=
  decide (p.ddrMax % 12 = 0) && decide (12 ≤ p.ddrMax) && decide (p.ddrMax ≤ 4000) &&
  decide (1 ≤ p.refMhz) && decide (p.refMhz ≤ 65535) &&
  decide (p.offDphyParam.toNat % 4 = 0) && decide (p.offClkLaneTiming.toNat % 4 = 0) &&
  decide (p.offLpByteclk.toNat % 4 = 0) && decide (p.offClkLaneSwt.toNat % 4 = 0) &&
  decide [p.offDphyParam, p.offClkLaneTiming, p.offLpByteclk, p.offClkLaneSwt].Nodup

/-- A bias is 1 or 2 ticks (R7). -/
def biasOk (b : Nat) : Bool := b == 1 || b == 2

/-- Every bias of the table is 1 or 2 (R7). -/
def biasesOk (b : PerInterval Nat) : Bool :=
  biasOk b.hsPrep && biasOk b.hsZero && biasOk b.hsTrail && biasOk b.hsExit &&
  biasOk b.clkPrep && biasOk b.clkZero && biasOk b.clkTrail && biasOk b.clkExit

/-- Well-formedness of a configuration (R8, with the ranges of R7's table). -/
def Cfg.admitted (c : Cfg) : Bool :=
  c.toOpenParams.admitted && decide (c.nDir = 1) && biasesOk c.bias

/-- OPEN parameters that pass R8. The values written here only show that some exist: `Config.openParams` is
opaque and no proof sees them. -/
structure AdmittedOpen where
  params : OpenParams :=
    { refMhz := 48, ddrMax := 744, offDphyParam := 0x40#16, offClkLaneTiming := 0x44#16
      offLpByteclk := 0x48#16, offClkLaneSwt := 0x4C#16 }
  ok : params.admitted = true := by decide
  deriving DecidableEq, Repr, Inhabited

/-- A configuration that passes R8. R8 has a model refuse any other: none can be built, so the model is
not instantiated (93_implementation_defined.md I4). -/
structure AdmittedCfg where
  params : Cfg
  ok : params.admitted = true
  deriving DecidableEq, Repr

/-- The OPEN parameters of the hardware at hand (R7): any values that pass R8, and nothing more is known of them.
DESIGN CHOICE (log entry 1), safe: a statement about them holds for every admitted value. -/
opaque Config.openParams : AdmittedOpen

/-- What a 32-bit field of PLAN holds after a value of `2^32` or more is stored in it. R11 says that the default
parameters never store one and states no result where other parameters do: a free value.
DESIGN CHOICE (log entry 2), safe: nothing constrains it. -/
opaque Config.wideStore : Nat → Word

/-- With the spec's defaults, R8 asks nothing beyond the check of the OPEN parameters. -/
theorem Cfg.ofOpen_admitted {p : OpenParams} (h : p.admitted = true) : (Cfg.ofOpen p).admitted = true := by
  simp only [Cfg.admitted, Cfg.ofOpen, h, Bool.true_and]
  decide

/-- The configuration of a run that begins at `State.reset`: the spec's default for every parameter that has one
(R7), the OPEN parameters unknown. -/
def Config.cfg : AdmittedCfg where
  params := Cfg.ofOpen Config.openParams.params
  ok := Cfg.ofOpen_admitted Config.openParams.ok

end Sys2Proof
end

