-- ==== Sys2Proof/Machine/State.lean ====
section
/-! DEFINITION. The block's state `S` (10_state.md R31 to R50) as plain data, its reset value (R50), and the model's
two own fields: the configuration the run was given, and the host's pending port events. -/

namespace Sys2Proof.Machine

/-- One value for each of the eleven counts. -/
structure PerCount (α : Type) where
  hsPrep : α
  hsZero : α
  hsTrail : α
  hsExit : α
  clkPrep : α
  clkZero : α
  clkTrail : α
  clkExit : α
  lpDiv : α
  clkHs2Lp : α
  clkLp2Hs : α
  deriving DecidableEq, Repr

/-- `MODE`, the latched PanelVideoMode subset (R32). `lanes` is a natural, 1 or 2. -/
structure Mode where
  valid : Bool
  pclkDiv : Byte
  fmt : PixelFormat
  cls : VideoClass
  lanes : Nat
  deriving DecidableEq, Repr

/-- `PLAN` (R34 to R37): the ClockPlan fields, the eight intervals in ns, the eleven counts in ticks, and whether
an override was used. -/
structure Plan where
  valid : Bool
  pclk : Word
  rawDdr : Word
  ddr : Word
  bp : Word
  intervals : PerInterval Word
  counts : PerCount Word
  ovrUsed : Bool
  deriving DecidableEq, Repr

/-- One entry of the named override table `OVR` (R38). -/
structure OvrEntry where
  en : Bool
  val : Byte
  deriving DecidableEq, Repr

/-- `IMG`, the four packed register images (R39). -/
structure Images where
  dphyParam : Word
  clkLaneTiming : Word
  lpByteclk : Word
  clkLaneSwt : Word
  deriving DecidableEq, Repr

/-- One entry `(off, value)` of the history `WRITES` (R48). -/
structure MmioWrite where
  off : Half
  value : Word
  deriving DecidableEq, Repr

/-- One entry `(raw_ddr, rounded, DDR_MAX)` of the history `REPORTS` (R48, R281). -/
structure Report where
  rawDdr : Nat
  rounded : Nat
  ddrMax : Nat
  deriving DecidableEq, Repr

/-- What the host can do to the block (R47): write a command word to the command port, or assert `RST`. Reading the
result port has no side effect and is no event. -/
inductive PortEvent where
  | command (w : Word)
  | reset
  deriving DecidableEq, Repr

/-- The state record `S` of R31. `cfg` and `port` are the MODEL's own fields, not the spec's: `cfg` is the
configuration the run was given (R7: a model takes it as an argument; no step writes it), `port` the events
the host has in store, oldest first (R47: executed in arrival order). DESIGN CHOICE, log entries 3 and 4. -/
structure State where
  cfg : AdmittedCfg
  mode : Mode
  plan : Plan
  ovr : PerCount OvrEntry
  img : Images
  imgValid : Bool
  stg : Word
  result : Word
  /-- `STATUS[7:0]`, the sticky error bits (R44). `STATUS[11:8]` is no storage (R45). -/
  sticky : Byte
  writes : List MmioWrite
  reports : List Report
  port : List PortEvent
  deriving DecidableEq, Repr

/-- Why the block stops with a fault: there is no reason. An error sets a sticky bit and the next command executes
normally (R280), nothing is a trap (R283), and an MMIO write cannot fail (R71). Nothing raises a fault, and a closed
type without constructors says so. -/
inductive Fault where
  deriving DecidableEq, Repr

/-- Why the model gives a command no meaning. -/
inductive Refusal where
  /-- Raised by an arm of `exec` whose instruction has no meaning yet: safe, the model stops. No arm raises it now. -/
  | notModelled (mnemonic : String)
  deriving DecidableEq, Repr

/-! ### Reset values (R50) -/

/-- `MODE` after reset: everything 0 but `lanes = 1`. -/
def Mode.reset : Mode where
  valid := false
  pclkDiv := 0#8
  fmt := .bpp16
  cls := .nonBurst
  lanes := 1

/-- The same value for each interval. -/
def allIntervals {α : Type} (a : α) : PerInterval α := ⟨a, a, a, a, a, a, a, a⟩

/-- The same value for each count. -/
def allCounts {α : Type} (a : α) : PerCount α := ⟨a, a, a, a, a, a, a, a, a, a, a⟩

/-- `PLAN` after reset: every field 0. -/
def Plan.reset : Plan where
  valid := false
  pclk := 0#32
  rawDdr := 0#32
  ddr := 0#32
  bp := 0#32
  intervals := allIntervals 0#32
  counts := allCounts 0#32
  ovrUsed := false

/-- An override entry after reset: disabled, value 0. -/
def OvrEntry.reset : OvrEntry where
  en := false
  val := 0#8

/-- `IMG` after reset: four words 0. -/
def Images.reset : Images where
  dphyParam := 0#32
  clkLaneTiming := 0#32
  lpByteclk := 0#32
  clkLaneSwt := 0#32

/-- The machine right after reset, at the start of a run (R50, R310): both histories empty (R48), no port event
in store, the configuration `Config.cfg`. -/
def State.reset : State where
  cfg := Config.cfg
  mode := Mode.reset
  plan := Plan.reset
  ovr := allCounts OvrEntry.reset
  img := Images.reset
  imgValid := false
  stg := 0#32
  result := 0#32
  sticky := 0#8
  writes := []
  reports := []
  port := []

/-! ### Updates of one field, or of fields that one command writes together -/

/-- The parameters of the run's configuration. -/
def State.params (s : State) : Cfg := s.cfg.params

/-- `MODE` replaced. -/
def State.withMode (s : State) (m : Mode) : State := { s with mode := m }

/-- `PLAN` replaced and `IMG_VALID` cleared, in one step (R49, R132). -/
def State.withPlan (s : State) (p : Plan) : State := { s with plan := p, imgValid := false }

/-- `OVR` replaced. -/
def State.withOvr (s : State) (o : PerCount OvrEntry) : State := { s with ovr := o }

/-- `IMG` replaced and `IMG_VALID` set (R223). -/
def State.withImages (s : State) (m : Images) : State := { s with img := m, imgValid := true }

/-- `STG` replaced. -/
def State.withStg (s : State) (w : Word) : State := { s with stg := w }

/-- `RESULT` replaced. -/
def State.withResult (s : State) (w : Word) : State := { s with result := w }

/-- `STATUS[7:0]` replaced. -/
def State.withSticky (s : State) (b : Byte) : State := { s with sticky := b }

/-- One entry appended to `WRITES`. -/
def State.pushWrite (s : State) (w : MmioWrite) : State := { s with writes := s.writes ++ [w] }

/-- One entry appended to `REPORTS`. -/
def State.pushReport (s : State) (r : Report) : State := { s with reports := s.reports ++ [r] }

/-- The port's pending events replaced. -/
def State.withPort (s : State) (p : List PortEvent) : State := { s with port := p }

end Sys2Proof.Machine
end

