-- ==== Sys2Proof/Machine/Flags.lean ====
section
/-! DEFINITION. `STATUS` (10_state.md R43 to R46): the sticky error bits, the read-only mirrors, and the word
RDSTAT reads. The block has no condition codes. -/

namespace Sys2Proof.Machine

/-- The sticky error bits of `STATUS` (R44); an error's code is its bit number (R290). -/
inductive ErrBit where
  | cfgErr
  | illegal
  | noMode
  | ddrZero
  | noPlan
  | noImage
  | fieldOvf
  | misalign
  deriving DecidableEq, Repr

/-- The bit number of an error in `STATUS` (R44, R290). -/
def ErrBit.code : ErrBit → Nat
  | .cfgErr => 0
  | .illegal => 1
  | .noMode => 2
  | .ddrZero => 3
  | .noPlan => 4
  | .noImage => 5
  | .fieldOvf => 6
  | .misalign => 7

/-- Whether the error ends its command with no other effect; `CFG_ERR` and `FIELD_OVF` only record (R280). -/
def ErrBit.rejecting : ErrBit → Bool
  | .cfgErr => false
  | .fieldOvf => false
  | .illegal | .noMode | .ddrZero | .noPlan | .noImage | .misalign => true

/-- The mask of an error's bit. -/
def ErrBit.mask (e : ErrBit) : Byte := 1#8 <<< e.code

/-- `STATUS[7:0]` with an error's bit set; a bit already set stays 1 (R46). -/
def setSticky (st : Byte) (e : ErrBit) : Byte := st ||| e.mask

/-- `STATUS[7:0]` with the bits of a mask cleared, write-1-to-clear (R46, R263). -/
def clearSticky (st m : Byte) : Byte := st &&& ~~~m

/-- The word RDSTAT reads: `STATUS[31:12]` 0, the mirrors of `PLAN.ovr_used`, `IMG_VALID`, `PLAN.valid` and
`MODE.valid` at bits 11 down to 8, computed at the read (R45), and the sticky bits (R44, R262). -/
def statusWord (s : State) : Word :=
  (0#20 ++ BitVec.ofBool s.plan.ovrUsed ++ BitVec.ofBool s.imgValid ++ BitVec.ofBool s.plan.valid ++
    BitVec.ofBool s.mode.valid ++ s.sticky : BitVec 32)

end Sys2Proof.Machine
end

