-- ==== Sys2Proof/WellFormed.lean ====
section
/-! DEFINITION. Which commands have an encoding: the operand ranges of 30_encoding.md R95, R98 and R106. -/

namespace Sys2Proof

/-- SETMODE's lane count is 1 or 2 (R95). -/
def lanesOk (lanes : Nat) : Bool := lanes == 1 || lanes == 2

/-- CALCDDR's raw frequency fits the 16-bit immediate (R98). -/
def rawOk (raw : Nat) : Bool := decide (raw ≤ 65535)

/-- SETFLD's field index is 0..3 (R106). -/
def fieldIndexOk (k : Nat) : Bool := decide (k ≤ 3)

/-- The operands of a command lie in the ranges its encoding admits. -/
def Instr.wellFormed : Instr → Bool
  | .nop => true
  | .setmode _ _ _ lanes => lanesOk lanes
  | .compute => true
  | .calcddr raw => rawOk raw
  | .setovr _ _ => true
  | .clrovr _ => true
  | .pack => true
  | .write => true
  | .setfld k _ => fieldIndexOk k
  | .clrstg => true
  | .wrstg _ => true
  | .rdres _ => true
  | .rdstat => true
  | .clrstat _ => true

end Sys2Proof
end

