-- ==== Sys2Proof/Decode.lean ====
section
/-! DEFINITION. The decoder of 30_encoding.md R106, total on every 32-bit word and rejecting by name, and after it
the encoder of the same tables (R90 to R98). -/

namespace Sys2Proof

/-! ### Fields of a command word (R90) -/

/-- `OP`, bits 31:24. -/
def opField (w : Word) : Byte := w.extractLsb' 24 8

/-- `SEL`, bits 23:16. -/
def selField (w : Word) : Byte := w.extractLsb' 16 8

/-- `IMM`, bits 15:0. -/
def immField (w : Word) : Half := w.extractLsb' 0 16

/-- `IMM[7:0]`: the divider of SETMODE, the value of SETOVR and SETFLD, the mask of CLRSTAT (R95, R96). -/
def immLow (imm : Half) : Byte := imm.extractLsb' 0 8

/-- `IMM[15:8]`, fixed zero in SETOVR, SETFLD and CLRSTAT (R96). -/
def immHigh (imm : Half) : Byte := imm.extractLsb' 8 8

/-! ### Codes of the named operands -/

/-- The pixel format with code `IMM[9:8]`; code 3 has none (R95). -/
def PixelFormat.ofCode : Nat → Option PixelFormat
  | 0 => some .bpp16
  | 1 => some .bpp18
  | 2 => some .bpp24
  | _ => none

/-- The code of a pixel format (R33). -/
def PixelFormat.code : PixelFormat → BitVec 2
  | .bpp16 => 0#2
  | .bpp18 => 1#2
  | .bpp24 => 2#2

/-- `IMM[10]`: 0 non-burst-with-sync, 1 burst (R95). -/
def VideoClass.ofBit : Bool → VideoClass
  | false => .nonBurst
  | true => .burst

/-- The bit of a video-mode class (R95). -/
def VideoClass.bit : VideoClass → BitVec 1
  | .nonBurst => 0#1
  | .burst => 1#1

/-- The position `i = 0..10` of a count among the eleven: its selector is `0x03 + i` (R93, R94). -/
def Count.index : Count → Nat
  | .hsPrep => 0
  | .hsZero => 1
  | .hsTrail => 2
  | .hsExit => 3
  | .clkPrep => 4
  | .clkZero => 5
  | .clkTrail => 6
  | .clkExit => 7
  | .lpDiv => 8
  | .clkHs2Lp => 9
  | .clkLp2Hs => 10

/-- The count with selector `sel`, `0x03` to `0x0D` (R94). -/
def Count.ofSel : Nat → Option Count
  | 0x03 => some .hsPrep
  | 0x04 => some .hsZero
  | 0x05 => some .hsTrail
  | 0x06 => some .hsExit
  | 0x07 => some .clkPrep
  | 0x08 => some .clkZero
  | 0x09 => some .clkTrail
  | 0x0A => some .clkExit
  | 0x0B => some .lpDiv
  | 0x0C => some .clkHs2Lp
  | 0x0D => some .clkLp2Hs
  | _ => none

/-- The selector of a count (R94). -/
def Count.sel (q : Count) : Byte := BitVec.ofNat 8 (0x03 + q.index)

/-- What CLROVR's selector names: one count, or all eleven at `0xFF` (R94). -/
def OvrTarget.ofSel (sel : Nat) : Option OvrTarget :=
  if sel = 0xFF then some .all else (Count.ofSel sel).map .one

/-- The selector of CLROVR's target (R94). -/
def OvrTarget.sel : OvrTarget → Byte
  | .one q => q.sel
  | .all => 0xFF#8

/-- The position of an interval among the eight: its result selector is `0x14 + i` (R93). -/
def Interval.index : Interval → Nat
  | .hsPrep => 0
  | .hsZero => 1
  | .hsTrail => 2
  | .hsExit => 3
  | .clkPrep => 4
  | .clkZero => 5
  | .clkTrail => 6
  | .clkExit => 7

/-- The position of a timing register among the four: its image's result selector is `0x0E + i` (R93). -/
def TimingReg.index : TimingReg → Nat
  | .dphyParam => 0
  | .clkLaneTiming => 1
  | .lpByteclk => 2
  | .clkLaneSwt => 3

/-- The result with selector `sel`, `0x00` to `0x1C` (R93). -/
def ResultSel.ofSel : Nat → Option ResultSel
  | 0x00 => some .pclk
  | 0x01 => some .rawDdr
  | 0x02 => some .ddr
  | 0x03 => some (.count .hsPrep)
  | 0x04 => some (.count .hsZero)
  | 0x05 => some (.count .hsTrail)
  | 0x06 => some (.count .hsExit)
  | 0x07 => some (.count .clkPrep)
  | 0x08 => some (.count .clkZero)
  | 0x09 => some (.count .clkTrail)
  | 0x0A => some (.count .clkExit)
  | 0x0B => some (.count .lpDiv)
  | 0x0C => some (.count .clkHs2Lp)
  | 0x0D => some (.count .clkLp2Hs)
  | 0x0E => some (.image .dphyParam)
  | 0x0F => some (.image .clkLaneTiming)
  | 0x10 => some (.image .lpByteclk)
  | 0x11 => some (.image .clkLaneSwt)
  | 0x12 => some .stg
  | 0x13 => some .bp
  | 0x14 => some (.interval .hsPrep)
  | 0x15 => some (.interval .hsZero)
  | 0x16 => some (.interval .hsTrail)
  | 0x17 => some (.interval .hsExit)
  | 0x18 => some (.interval .clkPrep)
  | 0x19 => some (.interval .clkZero)
  | 0x1A => some (.interval .clkTrail)
  | 0x1B => some (.interval .clkExit)
  | 0x1C => some .ovrMask
  | _ => none

/-- The selector of a result (R93). -/
def ResultSel.sel : ResultSel → Byte
  | .pclk => 0x00#8
  | .rawDdr => 0x01#8
  | .ddr => 0x02#8
  | .count q => q.sel
  | .image r => BitVec.ofNat 8 (0x0E + r.index)
  | .stg => 0x12#8
  | .bp => 0x13#8
  | .interval q => BitVec.ofNat 8 (0x14 + q.index)
  | .ovrMask => 0x1C#8

/-! ### The decoder -/

/-- Why a word is `Illegal`: the `require` of R106 that failed. -/
inductive DecodeError where
  /-- `OP` is `0x0E` or above (R100). -/
  | opcode
  /-- A field the encoding fixes to 0 holds a 1 (R101). -/
  | fixedZero
  /-- `SEL` is outside the command's range (R93, R94, R106). -/
  | selector
  /-- SETMODE with format code 3 (R95). -/
  | format
  deriving DecidableEq, Repr

/-- A command with no operand: `SEL` and `IMM` are 0 (R106). -/
def decodePlain (sel : Byte) (imm : Half) (i : Instr) : Except DecodeError Instr :=
  if sel = 0#8 ∧ imm = 0#16 then .ok i else .error .fixedZero

/-- SETMODE: `SEL` and `IMM[15:12]` are 0 and the format code is not 3; `lanes = IMM[11] + 1` (R95). -/
def decodeSetmode (sel : Byte) (imm : Half) : Except DecodeError Instr :=
  if sel = 0#8 ∧ imm.extractLsb' 12 4 = 0#4 then
    match PixelFormat.ofCode (imm.extractLsb' 8 2).toNat with
    | some fmt =>
      .ok (.setmode (immLow imm) fmt (VideoClass.ofBit (imm.getLsbD 10)) ((imm.extractLsb' 11 1).toNat + 1))
    | none => .error .format
  else .error .fixedZero

/-- SETOVR: a count selector, `IMM[15:8]` 0 (R94, R96). -/
def decodeSetovr (sel : Byte) (imm : Half) : Except DecodeError Instr :=
  match Count.ofSel sel.toNat with
  | some q => if immHigh imm = 0#8 then .ok (.setovr q (immLow imm)) else .error .fixedZero
  | none => .error .selector

/-- CLROVR: a count selector or `0xFF`, `IMM` 0 (R94). -/
def decodeClrovr (sel : Byte) (imm : Half) : Except DecodeError Instr :=
  match OvrTarget.ofSel sel.toNat with
  | some t => if imm = 0#16 then .ok (.clrovr t) else .error .fixedZero
  | none => .error .selector

/-- SETFLD: a field index 0..3, `IMM[15:8]` 0 (R96, R106). -/
def decodeSetfld (sel : Byte) (imm : Half) : Except DecodeError Instr :=
  if sel.toNat ≤ 3 then
    if immHigh imm = 0#8 then .ok (.setfld sel.toNat (immLow imm)) else .error .fixedZero
  else .error .selector

/-- RDRES: a result selector, `IMM` 0 (R93). -/
def decodeRdres (sel : Byte) (imm : Half) : Except DecodeError Instr :=
  match ResultSel.ofSel sel.toNat with
  | some r => if imm = 0#16 then .ok (.rdres r) else .error .fixedZero
  | none => .error .selector

/-- The decode procedure of R106 on the three fields of a word. -/
def decodeFields (op sel : Byte) (imm : Half) : Except DecodeError Instr :=
  match op.toNat with
  | 0x00 => decodePlain sel imm .nop
  | 0x01 => decodeSetmode sel imm
  | 0x02 => decodePlain sel imm .compute
  | 0x03 => if sel = 0#8 then .ok (.calcddr imm.toNat) else .error .fixedZero
  | 0x04 => decodeSetovr sel imm
  | 0x05 => decodeClrovr sel imm
  | 0x06 => decodePlain sel imm .pack
  | 0x07 => decodePlain sel imm .write
  | 0x08 => decodeSetfld sel imm
  | 0x09 => decodePlain sel imm .clrstg
  | 0x0A => if sel = 0#8 then .ok (.wrstg imm) else .error .fixedZero
  | 0x0B => decodeRdres sel imm
  | 0x0C => decodePlain sel imm .rdstat
  | 0x0D => if sel = 0#8 ∧ immHigh imm = 0#8 then .ok (.clrstat (immLow imm)) else .error .fixedZero
  | _ => .error .opcode

/-- The decoder (R102, R106): every word is one command with its operands, or illegal for a named reason. -/
def decode (w : Word) : Except DecodeError Instr :=
  decodeFields (opField w) (selField w) (immField w)

/-! ### The encoder -/

/-- The operation code of a command (R92). -/
def Instr.opcode : Instr → Byte
  | .nop => 0x00#8
  | .setmode _ _ _ _ => 0x01#8
  | .compute => 0x02#8
  | .calcddr _ => 0x03#8
  | .setovr _ _ => 0x04#8
  | .clrovr _ => 0x05#8
  | .pack => 0x06#8
  | .write => 0x07#8
  | .setfld _ _ => 0x08#8
  | .clrstg => 0x09#8
  | .wrstg _ => 0x0A#8
  | .rdres _ => 0x0B#8
  | .rdstat => 0x0C#8
  | .clrstat _ => 0x0D#8

/-- The `SEL` field of a command; 0 where it takes none (R90, R92). -/
def Instr.selBits : Instr → Byte
  | .setovr q _ => q.sel
  | .clrovr t => t.sel
  | .setfld k _ => BitVec.ofNat 8 k
  | .rdres r => r.sel
  | .nop | .setmode _ _ _ _ | .compute | .calcddr _ | .pack | .write | .clrstg | .wrstg _ | .rdstat
  | .clrstat _ => 0#8

/-- The `IMM` field of a command; 0 where it takes none (R92, R95 to R98). SETMODE's is
`0000, L, cls, fmt, div` from bit 15 down, with `L = lanes - 1`. -/
def Instr.immBits : Instr → Half
  | .setmode div fmt cls lanes => (0#4 ++ BitVec.ofNat 1 (lanes - 1) ++ cls.bit ++ fmt.code ++ div : BitVec 16)
  | .calcddr raw => BitVec.ofNat 16 raw
  | .setovr _ v => (0#8 ++ v : BitVec 16)
  | .setfld _ v => (0#8 ++ v : BitVec 16)
  | .wrstg off => off
  | .clrstat m => (0#8 ++ m : BitVec 16)
  | .nop | .compute | .clrovr _ | .pack | .write | .clrstg | .rdres _ | .rdstat => 0#16

/-- The word `OP, SEL, IMM` (R90). -/
def packFields (op sel : Byte) (imm : Half) : Word := (op ++ sel ++ imm : BitVec 32)

/-- The encoding of a command (R90, R92). -/
def encode (i : Instr) : Word := packFields i.opcode i.selBits i.immBits

/-! ### The host's table words -/

/-- The command the decoder reads from a table word: `nbits` bits of `w`, every bit above them 0. A command is
one 32-bit word (R91), so a longer value is none. -/
def decodeTableWord (nbits w : Nat) : Option Instr :=
  if w % 2 ^ nbits < 2 ^ 32 then (decode (BitVec.ofNat 32 (w % 2 ^ nbits))).toOption else none

end Sys2Proof
end

