-- ==== Sys2Proof/Machine/Operands.lean ====
section
/-! DEFINITION. Operand forms: what a named count, interval, register or result selector reads and writes, and the
decoding of `MODE` (10_state.md R33, 30_encoding.md R93, 45_status.md R264). -/

namespace Sys2Proof.Machine

/-- Bits per pixel of a format (R33, R122). -/
def bpp : PixelFormat → Nat
  | .bpp16 => 16
  | .bpp18 => 18
  | .bpp24 => 24

/-- The video-mode multiplier: 2 for burst, 1 for non-burst (R33, R123). -/
def mult : VideoClass → Nat
  | .nonBurst => 1
  | .burst => 2

/-- The value of count `q`. -/
def PerCount.get {α : Type} (p : PerCount α) : Count → α
  | .hsPrep => p.hsPrep
  | .hsZero => p.hsZero
  | .hsTrail => p.hsTrail
  | .hsExit => p.hsExit
  | .clkPrep => p.clkPrep
  | .clkZero => p.clkZero
  | .clkTrail => p.clkTrail
  | .clkExit => p.clkExit
  | .lpDiv => p.lpDiv
  | .clkHs2Lp => p.clkHs2Lp
  | .clkLp2Hs => p.clkLp2Hs

/-- The table with the value of count `q` replaced. -/
def PerCount.set {α : Type} (p : PerCount α) (q : Count) (v : α) : PerCount α :=
  match q with
  | .hsPrep => { p with hsPrep := v }
  | .hsZero => { p with hsZero := v }
  | .hsTrail => { p with hsTrail := v }
  | .hsExit => { p with hsExit := v }
  | .clkPrep => { p with clkPrep := v }
  | .clkZero => { p with clkZero := v }
  | .clkTrail => { p with clkTrail := v }
  | .clkExit => { p with clkExit := v }
  | .lpDiv => { p with lpDiv := v }
  | .clkHs2Lp => { p with clkHs2Lp := v }
  | .clkLp2Hs => { p with clkLp2Hs := v }

/-- `f` applied to each of the eleven values. -/
def PerCount.map {α β : Type} (f : α → β) (p : PerCount α) : PerCount β where
  hsPrep := f p.hsPrep
  hsZero := f p.hsZero
  hsTrail := f p.hsTrail
  hsExit := f p.hsExit
  clkPrep := f p.clkPrep
  clkZero := f p.clkZero
  clkTrail := f p.clkTrail
  clkExit := f p.clkExit
  lpDiv := f p.lpDiv
  clkHs2Lp := f p.clkHs2Lp
  clkLp2Hs := f p.clkLp2Hs

/-- The eleven counts in selector order (R93). -/
def allCountNames : List Count :=
  [.hsPrep, .hsZero, .hsTrail, .hsExit, .clkPrep, .clkZero, .clkTrail, .clkExit, .lpDiv, .clkHs2Lp, .clkLp2Hs]

/-- Some of the eleven values satisfies `f`. -/
def PerCount.any {α : Type} (f : α → Bool) (p : PerCount α) : Bool :=
  allCountNames.any fun q => f (p.get q)

/-- The image of register `r` (R39). -/
def Images.get (m : Images) : TimingReg → Word
  | .dphyParam => m.dphyParam
  | .clkLaneTiming => m.clkLaneTiming
  | .lpByteclk => m.lpByteclk
  | .clkLaneSwt => m.clkLaneSwt

/-- The four timing registers in write order (R225). -/
def writeOrder : List TimingReg := [.dphyParam, .clkLaneTiming, .lpByteclk, .clkLaneSwt]

/-- The byte offset of register `r` in the controller window (R7, R78). -/
def regOffset (c : Cfg) : TimingReg → Half
  | .dphyParam => c.offDphyParam
  | .clkLaneTiming => c.offClkLaneTiming
  | .lpByteclk => c.offLpByteclk
  | .clkLaneSwt => c.offClkLaneSwt

/-- One bit as a number. -/
def bit (b : Bool) : Nat := if b then 1 else 0

/-- `OVR_MASK`: bit `i` is `OVR[q].en` for the count q with selector `0x03 + i`, bits 31:11 are 0 (R93, R264). -/
def ovrMask (o : PerCount OvrEntry) : Word :=
  BitVec.ofNat 32 ((allCountNames.map fun q => bit (o.get q).en * 2 ^ q.index).sum)

/-- The stored field a result selector names (R93). Every field is a 32-bit word, so nothing is left to
zero-extend (R264). -/
def resultField (s : State) : ResultSel → Word
  | .pclk => s.plan.pclk
  | .rawDdr => s.plan.rawDdr
  | .ddr => s.plan.ddr
  | .count q => s.plan.counts.get q
  | .image r => s.img.get r
  | .stg => s.stg
  | .bp => s.plan.bp
  | .interval q => s.plan.intervals.get q
  | .ovrMask => ovrMask s.ovr

/-- `STG[8k+7 : 8k] <- v`, the other bits kept (R226). -/
def setByteField (w : Word) (k : Nat) (v : Byte) : Word :=
  (w &&& ~~~(0xFF#32 <<< (8 * k))) ||| (v.setWidth 32 <<< (8 * k))

/-- Byte field `k` of a word, bits `8k+7 : 8k` (R73, R221). -/
def byteField (w : Word) (k : Nat) : Byte := w.extractLsb' (8 * k) 8

end Sys2Proof.Machine
end

