-- ==== Sys2Proof/Machine/Ops.lean ====
section
/-! DEFINITION. The shared operations: the arithmetic of 00_scope.md R11 to R15, storing into a 32-bit field,
raising an error (60_exceptions.md R280 to R283), the report (R281), the MMIO write (20_memory.md R71), the
reset event (70_reset_and_hazards.md R310 to R312) and the acceptance of a port event (10_state.md R47). -/

namespace Sys2Proof.Machine

/-! ### The source's fixed numbers (R7) -/

/-- `DDR_STEP`: the reference divider granularity (R7, R125). -/
def ddrStep : Nat := 12

/-- `LPDIV_DEN` (R7, R171). -/
def lpdivDen : Nat := 48

/-- `BYTE_NS_NUM`: the byte-clock period is `4000/ddr` ns (R7, R151). -/
def byteNsNum : Nat := 4000

/-- `UI_NS_NUM`: one unit interval is `500/ddr` ns (R7, R150). -/
def uiNsNum : Nat := 500

/-! ### Arithmetic on unbounded numbers (R11) -/

/-- `ceil_div(a, b)` (R12). -/
def ceilDiv (a b : Nat) : Nat := (a + b - 1) / b

/-- `round_div(a, b)`: to nearest, an exact half up (R14). -/
def roundDiv (a b : Nat) : Nat := (a + b / 2) / b

/-- `clamp0(x)` (R13). -/
def clamp0 (x : Int) : Nat := if x > 0 then x.toNat else 0

/-- A value stored in a 32-bit field of PLAN (R11, R34 to R36). -/
def store32 (v : Nat) : Word := if v < 2 ^ 32 then BitVec.ofNat 32 v else Config.wideStore v

/-! ### Errors, the report and the MMIO write -/

/-- `raise Err(bit)`: the sticky bit is set and nothing else changes; no state is saved, control goes nowhere, and
the next command executes normally (R16, R280, R283). The one operation by which a command reports an error;
there is no return from it, because there is no trap. -/
def raiseErr (e : ErrBit) (s : State) : State := s.withSticky (setSticky s.sticky e)

/-- `Illegal`: what a word the decoder rejects does (R282). -/
def executeIllegal (s : State) : State := raiseErr .illegal s

/-- `ReportCfgErr(raw, rounded, DDR_MAX)`: one report, appended to `REPORTS` (R281). -/
def reportCfgErr (raw rounded ddrMax : Nat) (s : State) : State := s.pushReport ⟨raw, rounded, ddrMax⟩

/-- `MmioWrite(off, v)`: one 32-bit write, delivered and appended to `WRITES`; it cannot fail (R71). -/
def mmioWrite (off : Half) (v : Word) (s : State) : State := s.pushWrite ⟨off, v⟩

/-- An offset is a multiple of 4 (R71, R74). -/
def aligned (off : Half) : Bool := decide (off.toNat % 4 = 0)

/-! ### Reset and the command port -/

/-- The `RST` event: every state element takes its reset value, the two histories keep their entries, and no write
and no report is issued (R310, R312). The configuration is not state and stays (R310). -/
def resetBlock (s : State) : State :=
  { State.reset with cfg := s.cfg, writes := s.writes, reports := s.reports, port := s.port }

/-- The next port event, and the state in which the block has accepted it (R47: in arrival order). -/
def accept (s : State) : Option (PortEvent × State) :=
  match s.port with
  | [] => none
  | e :: rest => some (e, s.withPort rest)

end Sys2Proof.Machine
end

