-- ==== Sys2Proof/Machine/Override.lean ====
section
/-! DEFINITION. The named override table: the meanings of SETOVR and CLROVR (43_override.md). Where an override
applies is `override` of Machine/Timing.lean (R203). -/

namespace Sys2Proof.Machine

/-- One entry disabled with value 0, or all eleven (R202). -/
def clearOverride (o : PerCount OvrEntry) : OvrTarget → PerCount OvrEntry
  | .one q => o.set q { en := false, val := 0#8 }
  | .all => allCounts { en := false, val := 0#8 }

/-- `SETOVR` (R201): enables the override of one count; PLAN keeps its values until the next commit (R316). -/
def execSetovr (q : Count) (v : Byte) (s : State) : Host.Outcome State Fault Refusal :=
  .next (s.withOvr (s.ovr.set q { en := true, val := v }))

/-- `CLROVR` (R202). -/
def execClrovr (target : OvrTarget) (s : State) : Host.Outcome State Fault Refusal :=
  .next (s.withOvr (clearOverride s.ovr target))

end Sys2Proof.Machine
end

