-- ==== Sys2Proof/Machine/Packer.lean ====
section
/-! DEFINITION. The register-field packer and the ordered MMIO writes: the meanings of PACK, WRITE, SETFLD, CLRSTG and
WRSTG (44_packer.md). -/

namespace Sys2Proof.Machine

/-- `fld(v)`: a count cut to one byte by `FIELD_POLICY` (R222). -/
def fld (p : FieldPolicy) (v : Nat) : Nat :=
  match p with
  | .truncate => v % 256
  | .saturate => min v 255

/-- A count does not fit its byte (R222). -/
def overflows (v : Nat) : Bool := decide (v > 255)

/-- `pack4(b0, b1, b2, b3)`: the four cut values side by side, field `k` at bits `8k+7 : 8k`, so that their sum is
`fld(b0) + fld(b1) * 2^8 + fld(b2) * 2^16 + fld(b3) * 2^24` (R221). -/
def pack4 (p : FieldPolicy) (b0 b1 b2 b3 : Nat) : Word :=
  (BitVec.ofNat 8 (fld p b3) ++ BitVec.ofNat 8 (fld p b2) ++ BitVec.ofNat 8 (fld p b1) ++ BitVec.ofNat 8 (fld p b0) :
    BitVec 32)

/-- The four images of the committed counts (R220, R223). -/
def packImages (p : FieldPolicy) (n : PerCount Word) : Images where
  dphyParam := pack4 p n.hsPrep.toNat n.hsZero.toNat n.hsTrail.toNat n.hsExit.toNat
  clkLaneTiming := pack4 p n.clkPrep.toNat n.clkZero.toNat n.clkTrail.toNat n.clkExit.toNat
  lpByteclk := pack4 p n.lpDiv.toNat 0 0 0
  clkLaneSwt := pack4 p n.clkHs2Lp.toNat n.clkLp2Hs.toNat 0 0

/-- Some of the eleven counts is above 255 (R223). -/
def anyOverflow (n : PerCount Word) : Bool := n.any fun v => overflows v.toNat

/-- `FIELD_OVF` recorded where a count does not fit; the command goes on (R280, R288). -/
def recordOverflow (s : State) : State :=
  if anyOverflow s.plan.counts then raiseErr .fieldOvf s else s

/-- The four images written in the fixed order (R224, R225). -/
def writeImages (s : State) : State :=
  writeOrder.foldl (fun t r => mmioWrite (regOffset s.params r) (s.img.get r) t) s

/-- `PACK` (R223): `NO_PLAN` while PLAN is invalid (R286), else builds the images and sets `IMG_VALID`. -/
def execPack (s : State) : Host.Outcome State Fault Refusal :=
  .next (if s.plan.valid then
      (recordOverflow s).withImages (packImages s.params.fieldPolicy s.plan.counts)
    else raiseErr .noPlan s)

/-- `WRITE` (R224): `NO_IMAGE` while `IMG_VALID = 0` (R287), else the four writes as one step. -/
def execWrite (s : State) : Host.Outcome State Fault Refusal :=
  .next (if s.imgValid then writeImages s else raiseErr .noImage s)

/-- `SETFLD` (R226). -/
def execSetfld (k : Nat) (v : Byte) (s : State) : Host.Outcome State Fault Refusal :=
  .next (s.withStg (setByteField s.stg k v))

/-- `CLRSTG` (R227). -/
def execClrstg (s : State) : Host.Outcome State Fault Refusal :=
  .next (s.withStg 0#32)

/-- `WRSTG` (R228): `MISALIGN` for an offset that is no multiple of 4 (R289), else one write of STG. -/
def execWrstg (off : Half) (s : State) : Host.Outcome State Fault Refusal :=
  .next (if aligned off then mmioWrite off s.stg s else raiseErr .misalign s)

end Sys2Proof.Machine
end

