-- ==== Sys2Proof/Machine/Timing.lean ====
section
/-! DEFINITION. The timing calculator `Timing(ddr, OVR)` of 42_timing.md R150 to R174. -/

namespace Sys2Proof.Machine

/-- `k` unit intervals in whole nanoseconds, rounded up (R150). -/
def unitIntervals (k ddr : Nat) : Nat := ceilDiv (k * uiNsNum) ddr

/-- Conversion of an interval to ticks: by the integer period `4000 div ddr`, or by the exact one (R151). -/
def ticks (c : Cfg) (ddr : Nat) (m : RoundMode) (t : Nat) : Nat :=
  match c.periodMode, m with
  | .intPeriod, .ceil => ceilDiv t (byteNsNum / ddr)
  | .intPeriod, .nearest => roundDiv t (byteNsNum / ddr)
  | .exact, .ceil => ceilDiv (t * ddr) byteNsNum
  | .exact, .nearest => roundDiv (t * ddr) byteNsNum

/-! ### Intervals (ns) -/

/-- `T_HS_PREP` (R155). -/
def tHsPrep (ddr : Nat) : Nat := 60 + unitIntervals 4 ddr

/-- `T_HS_ZERO` (R156). -/
def tHsZero (ddr : Nat) : Nat := clamp0 (170 + (unitIntervals 10 ddr : Int) - (tHsPrep ddr : Int))

/-- `T_HS_TRAIL` (R157). -/
def tHsTrail (c : Cfg) (ddr : Nat) : Nat :=
  max (unitIntervals (c.nDir * 8) ddr) (60 + unitIntervals (c.nDir * 4) ddr) + 30

/-- `T_HS_EXIT` (R158). -/
def tHsExit (c : Cfg) (ddr : Nat) : Nat := c.hsExitBase + unitIntervals c.hsExitUi ddr

/-- `T_CLK_PREP` (R159). -/
def tClkPrep (c : Cfg) (ddr : Nat) : Nat := c.clkPrepBase + unitIntervals c.clkPrepUi ddr

/-- `T_CLK_ZERO` (R160). -/
def tClkZero (c : Cfg) (ddr : Nat) : Nat :=
  clamp0 ((c.clkPzBase : Int) + (unitIntervals c.clkPzUi ddr : Int) - (tClkPrep c ddr : Int))

/-- `T_CLK_TRAIL` (R161). -/
def tClkTrail (c : Cfg) (ddr : Nat) : Nat := c.clkTrailBase + unitIntervals c.clkTrailUi ddr

/-- `T_CLK_EXIT` (R162). -/
def tClkExit (c : Cfg) (ddr : Nat) : Nat := c.clkExitBase + unitIntervals c.clkExitUi ddr

/-- The eight intervals at `ddr` (R155 to R162). -/
def timingIntervals (c : Cfg) (ddr : Nat) : PerInterval Nat where
  hsPrep := tHsPrep ddr
  hsZero := tHsZero ddr
  hsTrail := tHsTrail c ddr
  hsExit := tHsExit c ddr
  clkPrep := tClkPrep c ddr
  clkZero := tClkZero c ddr
  clkTrail := tClkTrail c ddr
  clkExit := tClkExit c ddr

/-! ### Counts (ticks) -/

/-- The count of interval `q` before an override: `clamp0(ticks_RM[q](T_q) - BIAS[q])`, the difference taken in
the integers (R154). -/
def intervalCount (c : Cfg) (ddr : Nat) (q : Interval) : Nat :=
  clamp0 ((ticks c ddr (c.rm.get q) ((timingIntervals c ddr).get q) : Int) - (c.bias.get q : Int))

/-- `Ovr(q, v)`: the enabled override's value in place of the formula's (R174, R203). -/
def override (o : PerCount OvrEntry) (q : Count) (v : Nat) : Nat :=
  if (o.get q).en then (o.get q).val.toNat else v

/-- `LP_DIV` before an override (R171). -/
def lpDivCount (ddr : Nat) : Nat := ceilDiv ddr lpdivDen

/-- `CLK_HS2LP` before an override, from the final `CLK_TRAIL`, `CLK_EXIT` and `LP_DIV` (R172). -/
def hs2LpCount (c : Cfg) (clkTrail clkExit lpDiv : Nat) : Nat :=
  clamp0 ((clkTrail : Int) + clkExit + c.kHl * lpDiv + c.eHl)

/-- `CLK_LP2HS` before an override, from the final `LP_DIV`, `CLK_PREP` and `CLK_ZERO` (R173). -/
def lp2HsCount (c : Cfg) (lpDiv clkPrep clkZero : Nat) : Nat :=
  clamp0 ((c.kLh : Int) * lpDiv + clkPrep + clkZero + c.eLh)

/-- The final count of interval `q`, an override taken into account (R163 to R170). -/
def finalIntervalCount (c : Cfg) (ddr : Nat) (o : PerCount OvrEntry) (i : Interval) (q : Count) : Nat :=
  override o q (intervalCount c ddr i)

/-- The final `LP_DIV` (R171). -/
def finalLpDiv (ddr : Nat) (o : PerCount OvrEntry) : Nat := override o .lpDiv (lpDivCount ddr)

/-- The eleven counts in the order of R174: the switch-over counters read the final values of the others (R204). -/
def timingCounts (c : Cfg) (ddr : Nat) (o : PerCount OvrEntry) : PerCount Nat where
  hsPrep := finalIntervalCount c ddr o .hsPrep .hsPrep
  hsZero := finalIntervalCount c ddr o .hsZero .hsZero
  hsTrail := finalIntervalCount c ddr o .hsTrail .hsTrail
  hsExit := finalIntervalCount c ddr o .hsExit .hsExit
  clkPrep := finalIntervalCount c ddr o .clkPrep .clkPrep
  clkZero := finalIntervalCount c ddr o .clkZero .clkZero
  clkTrail := finalIntervalCount c ddr o .clkTrail .clkTrail
  clkExit := finalIntervalCount c ddr o .clkExit .clkExit
  lpDiv := finalLpDiv ddr o
  clkHs2Lp := override o .clkHs2Lp
    (hs2LpCount c (finalIntervalCount c ddr o .clkTrail .clkTrail) (finalIntervalCount c ddr o .clkExit .clkExit)
      (finalLpDiv ddr o))
  clkLp2Hs := override o .clkLp2Hs
    (lp2HsCount c (finalLpDiv ddr o) (finalIntervalCount c ddr o .clkPrep .clkPrep)
      (finalIntervalCount c ddr o .clkZero .clkZero))

/-- `ovr_used`: some override is enabled (R174, R205). -/
def anyOverride (o : PerCount OvrEntry) : Bool := o.any OvrEntry.en

/-- The record `P` that `Timing` returns (R174). -/
structure TimingResult where
  intervals : PerInterval Nat
  counts : PerCount Nat
  ovrUsed : Bool
  deriving DecidableEq, Repr

/-- `Timing(ddr, OVR)` (R174). It reads nothing but its arguments. -/
def timing (c : Cfg) (ddr : Nat) (o : PerCount OvrEntry) : TimingResult where
  intervals := timingIntervals c ddr
  counts := timingCounts c ddr o
  ovrUsed := anyOverride o

end Sys2Proof.Machine
end

