-- ==== Sys2Proof/Machine/Resolver.lean ====
section
/-! DEFINITION. DDR-frequency resolution: the steps and the atomic commit of 41_config.md, and the meanings of
SETMODE, COMPUTE and CALCDDR. -/

namespace Sys2Proof.Machine

/-! ### The resolution steps -/

/-- `pclk = REF_MHZ div (pclk_div + 1)` (R121). -/
def pixelClock (c : Cfg) (m : Mode) : Nat := c.refMhz / (m.pclkDiv.toNat + 1)

/-- `raw = (pclk * bpp * mult) div (2 * lanes)` (R124). -/
def rawDdr (c : Cfg) (m : Mode) : Nat := pixelClock c m * bpp m.fmt * mult m.cls / (2 * m.lanes)

/-- The least multiple of 12 that is at least `raw` (R125). -/
def roundedDdr (raw : Nat) : Nat := ceilDiv raw ddrStep * ddrStep

/-- The rounded frequency exceeds the hardware maximum (R126). -/
def clamps (c : Cfg) (raw : Nat) : Bool := decide (roundedDdr raw > c.ddrMax)

/-- The resolved DDR frequency: rounded, then clamped to `DDR_MAX` (R126). -/
def resolvedDdr (c : Cfg) (raw : Nat) : Nat := if clamps c raw then c.ddrMax else roundedDdr raw

/-! ### The commit -/

/-- The PLAN that a commit writes: `PLAN.bp` is `4000 div ddr` in both period modes (R34, R132). -/
def planOf (pclk raw ddr : Nat) (p : TimingResult) : Plan where
  valid := true
  pclk := store32 pclk
  rawDdr := store32 raw
  ddr := store32 ddr
  bp := store32 (byteNsNum / ddr)
  intervals := p.intervals.map store32
  counts := p.counts.map store32
  ovrUsed := p.ovrUsed

/-- `CommitPlan`: every field of PLAN in one step, and `IMG_VALID <- 0` (R132). -/
def commitPlan (pclk raw ddr : Nat) (p : TimingResult) (s : State) : State :=
  s.withPlan (planOf pclk raw ddr p)

/-- `CFG_ERR` set and one report, where the resolution clamps; nothing where it does not (R126, R281). -/
def recordClamp (raw : Nat) (s : State) : State :=
  if clamps s.params raw then
    reportCfgErr raw (roundedDdr raw) s.params.ddrMax (raiseErr .cfgErr s)
  else s

/-- `Resolve(pclk, raw)` (R130): round, clamp, `DDR_ZERO` with no commit at frequency 0 (R127), else record a clamp,
run the timing calculator and commit. -/
def resolve (pclk raw : Nat) (s : State) : State :=
  if resolvedDdr s.params raw = 0 then raiseErr .ddrZero s
  else
    commitPlan pclk raw (resolvedDdr s.params raw) (timing s.params (resolvedDdr s.params raw) s.ovr)
      (recordClamp raw s)

/-! ### The meanings -/

/-- `SETMODE` (R120): latches every field of MODE; touches nothing else. -/
def execSetmode (div : Byte) (fmt : PixelFormat) (cls : VideoClass) (lanes : Nat) (s : State) :
    Host.Outcome State Fault Refusal :=
  .next (s.withMode { valid := true, pclkDiv := div, fmt := fmt, cls := cls, lanes := lanes })

/-- `COMPUTE` (R130): `NO_MODE` while MODE is invalid (R284), else resolves from the latched mode. -/
def execCompute (s : State) : Host.Outcome State Fault Refusal :=
  .next (if s.mode.valid then resolve (pixelClock s.params s.mode) (rawDdr s.params s.mode) s
    else raiseErr .noMode s)

/-- `CALCDDR` (R131): resolves the frequency given, without a mode, `PLAN.pclk` committed as 0. -/
def execCalcddr (raw : Nat) (s : State) : Host.Outcome State Fault Refusal :=
  .next (resolve 0 raw s)

end Sys2Proof.Machine
end

