-- ==== Sys2Proof/Machine/Status.lean ====
section
/-! DEFINITION. Read-back, status and no-operation: the meanings of NOP, RDRES, RDSTAT and CLRSTAT (45_status.md). -/

namespace Sys2Proof.Machine

/-- `NOP` (R260): no state changes. -/
def execNop (s : State) : Host.Outcome State Fault Refusal := .next s

/-- `RDRES` (R261): the stored value, whatever the valid bits say. -/
def execRdres (sel : ResultSel) (s : State) : Host.Outcome State Fault Refusal :=
  .next (s.withResult (resultField s sel))

/-- `RDSTAT` (R262): reading clears nothing. -/
def execRdstat (s : State) : Host.Outcome State Fault Refusal :=
  .next (s.withResult (statusWord s))

/-- `CLRSTAT` (R263). -/
def execClrstat (m : Byte) (s : State) : Host.Outcome State Fault Refusal :=
  .next (s.withSticky (clearSticky s.sticky m))

end Sys2Proof.Machine
end

