-- ==== Sys2Proof/Machine/Dispatch.lean ====
section
/-! DEFINITION. One arm per command of R92, each a direct call of its meaning. -/

namespace Sys2Proof.Machine

/-- The effect of one decoded command (R106). -/
def exec (i : Instr) (s : State) : Host.Outcome State Fault Refusal :=
  match i with
  | .nop => Sys2Proof.Machine.execNop s
  | .setmode div fmt cls lanes => Sys2Proof.Machine.execSetmode div fmt cls lanes s
  | .compute => Sys2Proof.Machine.execCompute s
  | .calcddr raw => Sys2Proof.Machine.execCalcddr raw s
  | .setovr q v => Sys2Proof.Machine.execSetovr q v s
  | .clrovr target => Sys2Proof.Machine.execClrovr target s
  | .pack => Sys2Proof.Machine.execPack s
  | .write => Sys2Proof.Machine.execWrite s
  | .setfld k v => Sys2Proof.Machine.execSetfld k v s
  | .clrstg => Sys2Proof.Machine.execClrstg s
  | .wrstg off => Sys2Proof.Machine.execWrstg off s
  | .rdres sel => Sys2Proof.Machine.execRdres sel s
  | .rdstat => Sys2Proof.Machine.execRdstat s
  | .clrstat m => Sys2Proof.Machine.execClrstat m s

end Sys2Proof.Machine
end

