-- ==== Sys2Proof/Machine/Step.lean ====
section
/-! DEFINITION. One step: the block accepts one port event and executes it whole (00_scope.md R6, 10_state.md R47,
70_reset_and_hazards.md R311, R319). -/

namespace Sys2Proof.Machine

/-- One step. A command word is decoded before any state is read and executed, an illegal one sets `ILLEGAL`
(R106, R282); `RST` resets the block between two commands (R311); with no event in store the block waits
(DESIGN CHOICE, log entry 4). -/
def step (s : State) : Host.Outcome State Fault Refusal :=
  match accept s with
  | none => .next s
  | some (.reset, t) => .next (resetBlock t)
  | some (.command w, t) =>
    match decode w with
    | .ok i => exec i t
    | .error _ => .next (executeIllegal t)

/-- `s` with the command word `w` (its low `nbits` bits, every bit above them 0) as the next port event: the next
step accepts and runs it. -/
def State.withFetchWord (s : State) (nbits w : Nat) : State :=
  s.withPort (.command (BitVec.ofNat 32 (w % 2 ^ nbits)) :: s.port)

end Sys2Proof.Machine
end

