-- ==== Sys2Proof/Machine/Assembly.lean ====
section
/-! DEFINITION. Assembler forms and pseudo-instructions (30_encoding.md R103, R104). Neither is a command: the block sees
only the words. -/

namespace Sys2Proof.Machine

/-- The name of a count (R17, R93). -/
def countName : Count → String
  | .hsPrep => "HS_PREP"
  | .hsZero => "HS_ZERO"
  | .hsTrail => "HS_TRAIL"
  | .hsExit => "HS_EXIT"
  | .clkPrep => "CLK_PREP"
  | .clkZero => "CLK_ZERO"
  | .clkTrail => "CLK_TRAIL"
  | .clkExit => "CLK_EXIT"
  | .lpDiv => "LP_DIV"
  | .clkHs2Lp => "CLK_HS2LP"
  | .clkLp2Hs => "CLK_LP2HS"

/-- The name of an interval (R17, R93). -/
def intervalName : Interval → String
  | .hsPrep => "T_HS_PREP"
  | .hsZero => "T_HS_ZERO"
  | .hsTrail => "T_HS_TRAIL"
  | .hsExit => "T_HS_EXIT"
  | .clkPrep => "T_CLK_PREP"
  | .clkZero => "T_CLK_ZERO"
  | .clkTrail => "T_CLK_TRAIL"
  | .clkExit => "T_CLK_EXIT"

/-- The name of an image (R93). -/
def imageName : TimingReg → String
  | .dphyParam => "IMG_DPHY_PARAM"
  | .clkLaneTiming => "IMG_CLK_LANE_TIMING"
  | .lpByteclk => "IMG_LP_BYTECLK"
  | .clkLaneSwt => "IMG_CLK_LANE_SWT"

/-- The name of a result (R93). -/
def resultName : ResultSel → String
  | .pclk => "PCLK"
  | .rawDdr => "RAW_DDR"
  | .ddr => "DDR"
  | .count q => countName q
  | .image r => imageName r
  | .stg => "STG"
  | .bp => "BP"
  | .interval q => intervalName q
  | .ovrMask => "OVR_MASK"

/-- The name of CLROVR's target (R103). -/
def targetName : OvrTarget → String
  | .one q => countName q
  | .all => "ALL"

/-- The name of a video-mode class (R103). -/
def className : VideoClass → String
  | .nonBurst => "nonburst"
  | .burst => "burst"

/-- A command in its assembler form, numbers in decimal (R103). -/
def assembly : Instr → String
  | .nop => "NOP"
  | .setmode div fmt cls lanes =>
    "SETMODE div=" ++ Nat.repr div.toNat ++ ", fmt=" ++ Nat.repr (bpp fmt) ++ ", cls=" ++ className cls ++
      ", lanes=" ++ Nat.repr lanes
  | .compute => "COMPUTE"
  | .calcddr raw => "CALCDDR " ++ Nat.repr raw
  | .setovr q v => "SETOVR " ++ countName q ++ ", " ++ Nat.repr v.toNat
  | .clrovr t => "CLROVR " ++ targetName t
  | .pack => "PACK"
  | .write => "WRITE"
  | .setfld k v => "SETFLD " ++ Nat.repr k ++ ", " ++ Nat.repr v.toNat
  | .clrstg => "CLRSTG"
  | .wrstg off => "WRSTG " ++ Nat.repr off.toNat
  | .rdres r => "RDRES " ++ resultName r
  | .rdstat => "RDSTAT"
  | .clrstat m => "CLRSTAT " ++ Nat.repr m.toNat

/-- The pseudo-instructions of R104. -/
inductive Pseudo where
  | program
  | bringup
  | setstg (a b c d : Byte)
  | wrreg (off : Half) (a b c d : Byte)
  | clrerr
  deriving DecidableEq, Repr

/-- The commands a pseudo-instruction stands for, in order (R104). -/
def expand : Pseudo → List Instr
  | .program => [.pack, .write]
  | .bringup => [.compute, .pack, .write]
  | .setstg a b c d => [.setfld 0 a, .setfld 1 b, .setfld 2 c, .setfld 3 d]
  | .wrreg off a b c d => [.setfld 0 a, .setfld 1 b, .setfld 2 c, .setfld 3 d, .wrstg off]
  | .clrerr => [.clrstat 0xFF#8]

end Sys2Proof.Machine
end

