-- ==== Sys2Proof/Machine/Memory.lean ====
section
/-! DEFINITION. The controller register window as the block's port has written it: the byte view of `WRITES`
(20_memory.md R70 to R75). The window is no state of the block (R31) and the block never reads it (R72): what
stands here is what was DELIVERED at each byte offset, computed from the history, and not what a controller
register then holds (93_implementation_defined.md I11). -/

namespace Sys2Proof.Machine

/-- Delivered bytes by byte offset into the window, the offsets strictly rising. An offset that is not listed had
no byte delivered to it. -/
abbrev Memory := List Host.Cell

/-- The byte last delivered at offset `a`, none where nothing was delivered. -/
def Memory.read : Memory → Nat → Option Byte
  | [], _ => none
  | (b, v) :: m, a => if a = b then some v else Memory.read m a

/-- One byte delivered at offset `a`, keeping the offsets strictly rising. -/
def Memory.write : Memory → Nat → Byte → Memory
  | [], a, v => [(a, v)]
  | (b, u) :: m, a, v =>
    if a < b then (a, v) :: (b, u) :: m
    else if a = b then (a, v) :: m
    else (b, u) :: Memory.write m a v

/-- A 32-bit write at byte offset `a`: byte `k` of the word at `a + k`, little-endian (R73). -/
def Memory.writeWord (m : Memory) (a : Nat) (w : Word) : Memory :=
  Memory.write (Memory.write (Memory.write (Memory.write m a (w.extractLsb' 0 8)) (a + 1) (w.extractLsb' 8 8))
    (a + 2) (w.extractLsb' 16 8)) (a + 3) (w.extractLsb' 24 8)

/-- The canonical form: offsets strictly rising. -/
def Memory.wf : Memory → Bool
  | [] => true
  | [_] => true
  | (a, _) :: (b, v) :: m => decide (a < b) && Memory.wf ((b, v) :: m)

/-- What the writes of a history delivered to the window, in order (R81). -/
def windowOf (ws : List MmioWrite) : Memory :=
  ws.foldl (fun m e => Memory.writeWord m e.off.toNat e.value) []

/-- The window as every write the block has issued so far left it. -/
def State.window (s : State) : Memory := windowOf s.writes

end Sys2Proof.Machine
end

