-- ==== Sys2Proof/Safety.lean ====
section
/-! DEFINITION. What counts as a safe run: sequences of commands, and the invariants the spec promises between
commands. -/

namespace Sys2Proof.Machine

/-- A list of commands executed one after another, each whole before the next (R319); an error in one does not
stop the next (R104, R280). -/
def execAll : List Instr → State → Host.Outcome State Fault Refusal
  | [], s => .next s
  | i :: is, s =>
    match exec i s with
    | .next t => execAll is t
    | .fault r => .fault r
    | .refused r => .refused r

/-- The lane count is 1 or 2, and a mode that is not valid holds its reset value (R32). -/
def ModeLegal (s : State) : Prop :=
  (s.mode.lanes = 1 ∨ s.mode.lanes = 2) ∧ (s.mode.valid = false → s.mode = Mode.reset)

/-- PLAN holds either its reset value or the whole result of one commit at a frequency that is not 0 (R49). -/
def PlanWhole (s : State) : Prop :=
  (s.plan.valid = false → s.plan = Plan.reset) ∧
  (s.plan.valid = true → ∃ (pclk raw : Nat) (o : PerCount OvrEntry), raw ≠ 0 ∧
    s.plan = planOf pclk raw (resolvedDdr s.params raw) (timing s.params (resolvedDdr s.params raw) o))

/-- Valid images are those of the plan that is committed now, never of an older one (R39, R317). -/
def ImagesCurrent (s : State) : Prop :=
  s.imgValid = true →
    s.plan.valid = true ∧ s.img = packImages s.params.fieldPolicy s.plan.counts

/-- Every MMIO write issued so far was aligned (R71, R74). -/
def WritesAligned (s : State) : Prop := ∀ e ∈ s.writes, e.off.toNat % 4 = 0

/-- Every report is of a clamp: the rounded frequency is the least multiple of 12 not below the raw one and exceeds
`DDR_MAX` (R126, R281). -/
def ReportsSound (s : State) : Prop :=
  ∀ r ∈ s.reports, r.ddrMax = s.params.ddrMax ∧ r.rounded > r.ddrMax ∧ r.rounded % 12 = 0 ∧
    r.rawDdr ≤ r.rounded ∧ r.rounded < r.rawDdr + 12

/-- What holds between any two commands. -/
def Inv (s : State) : Prop :=
  ModeLegal s ∧ PlanWhole s ∧ ImagesCurrent s ∧ WritesAligned s ∧ ReportsSound s

/-! ### The spec's tables and forms that statements use, written out apart from the decoder and the meanings -/

/-- `OP` of a word as a number (R90). -/
def opNat (w : Word) : Nat := w.toNat / 2 ^ 24

/-- `SEL` of a word as a number (R90). -/
def selNat (w : Word) : Nat := w.toNat / 2 ^ 16 % 2 ^ 8

/-- `IMM` of a word as a number (R90). -/
def immNat (w : Word) : Nat := w.toNat % 2 ^ 16

/-- The decoder rejects the word (R106). -/
def Rejects (w : Word) : Prop := ∃ e : DecodeError, decode w = .error e

/-- The `require` conditions of R106, opcode by opcode. -/
def RequireHolds (w : Word) : Prop :=
  (opNat w ∈ [0x00, 0x02, 0x06, 0x07, 0x09, 0x0C] ∧ selNat w = 0 ∧ immNat w = 0) ∨
  (opNat w = 0x01 ∧ selNat w = 0 ∧ immNat w / 2 ^ 12 = 0 ∧ immNat w / 2 ^ 8 % 4 ≠ 3) ∨
  (opNat w ∈ [0x03, 0x0A] ∧ selNat w = 0) ∨
  (opNat w = 0x04 ∧ 0x03 ≤ selNat w ∧ selNat w ≤ 0x0D ∧ immNat w / 2 ^ 8 = 0) ∨
  (opNat w = 0x05 ∧ ((0x03 ≤ selNat w ∧ selNat w ≤ 0x0D) ∨ selNat w = 0xFF) ∧ immNat w = 0) ∨
  (opNat w = 0x08 ∧ selNat w ≤ 3 ∧ immNat w / 2 ^ 8 = 0) ∨
  (opNat w = 0x0B ∧ selNat w ≤ 0x1C ∧ immNat w = 0) ∨
  (opNat w = 0x0D ∧ selNat w = 0 ∧ immNat w / 2 ^ 8 = 0)

/-- The count selectors of R93 and R94. -/
def countSelectors : List (Byte × Count) :=
  [(0x03#8, .hsPrep), (0x04#8, .hsZero), (0x05#8, .hsTrail), (0x06#8, .hsExit), (0x07#8, .clkPrep),
    (0x08#8, .clkZero), (0x09#8, .clkTrail), (0x0A#8, .clkExit), (0x0B#8, .lpDiv), (0x0C#8, .clkHs2Lp),
    (0x0D#8, .clkLp2Hs)]

/-- The result selectors of R93, each with the stored field it names in `s`. -/
def resultSelectors (s : State) : List (Byte × ResultSel × Word) :=
  [(0x00#8, .pclk, s.plan.pclk), (0x01#8, .rawDdr, s.plan.rawDdr), (0x02#8, .ddr, s.plan.ddr),
    (0x03#8, .count .hsPrep, s.plan.counts.hsPrep), (0x04#8, .count .hsZero, s.plan.counts.hsZero),
    (0x05#8, .count .hsTrail, s.plan.counts.hsTrail), (0x06#8, .count .hsExit, s.plan.counts.hsExit),
    (0x07#8, .count .clkPrep, s.plan.counts.clkPrep), (0x08#8, .count .clkZero, s.plan.counts.clkZero),
    (0x09#8, .count .clkTrail, s.plan.counts.clkTrail), (0x0A#8, .count .clkExit, s.plan.counts.clkExit),
    (0x0B#8, .count .lpDiv, s.plan.counts.lpDiv), (0x0C#8, .count .clkHs2Lp, s.plan.counts.clkHs2Lp),
    (0x0D#8, .count .clkLp2Hs, s.plan.counts.clkLp2Hs), (0x0E#8, .image .dphyParam, s.img.dphyParam),
    (0x0F#8, .image .clkLaneTiming, s.img.clkLaneTiming), (0x10#8, .image .lpByteclk, s.img.lpByteclk),
    (0x11#8, .image .clkLaneSwt, s.img.clkLaneSwt), (0x12#8, .stg, s.stg), (0x13#8, .bp, s.plan.bp),
    (0x14#8, .interval .hsPrep, s.plan.intervals.hsPrep), (0x15#8, .interval .hsZero, s.plan.intervals.hsZero),
    (0x16#8, .interval .hsTrail, s.plan.intervals.hsTrail), (0x17#8, .interval .hsExit, s.plan.intervals.hsExit),
    (0x18#8, .interval .clkPrep, s.plan.intervals.clkPrep), (0x19#8, .interval .clkZero, s.plan.intervals.clkZero),
    (0x1A#8, .interval .clkTrail, s.plan.intervals.clkTrail), (0x1B#8, .interval .clkExit, s.plan.intervals.clkExit)]

/-- The errors R290's table lets each command raise once it is decoded. -/
def raisedBy : Instr → List ErrBit
  | .compute => [.cfgErr, .noMode, .ddrZero]
  | .calcddr _ => [.cfgErr, .ddrZero]
  | .pack => [.noPlan, .fieldOvf]
  | .write => [.noImage]
  | .wrstg _ => [.misalign]
  | .nop | .setmode _ _ _ _ | .setovr _ _ | .clrovr _ | .setfld _ _ | .clrstg | .rdres _ | .rdstat | .clrstat _ => []

/-- `s` after `CommitPlan(pclk, raw, ddr, Timing(ddr, OVR))`: every field of PLAN and `IMG_VALID`, and no other field
(R132, R174). -/
def committed (pclk raw ddr : Nat) (s : State) : State :=
  { s with
    plan :=
      { valid := true
        pclk := store32 pclk
        rawDdr := store32 raw
        ddr := store32 ddr
        bp := store32 (4000 / ddr)
        intervals := (timing s.params ddr s.ovr).intervals.map store32
        counts := (timing s.params ddr s.ovr).counts.map store32
        ovrUsed := (timing s.params ddr s.ovr).ovrUsed }
    imgValid := false }

end Sys2Proof.Machine
end

