-- ==== Sys2Proof/Certificates/Slice0/Obligations.lean ====
section
/-! DEFINITION. The statements for the provers. Each docstring names the rules of spec/ it formalises. -/

open Sys2Proof Sys2Proof.Machine

/-! ### Encoding -/

/-- R92, R95 to R98, R106: decoding the encoding of a well-formed command gives the command back. -/
def Obligations.DecodeOfEncode : Prop :=
  ∀ i : Instr, i.wellFormed = true → decode (encode i) = .ok i

/-- R101, R106: a word that decodes is exactly the encoding of its command, so no set bit is ignored; and the command
is well-formed. -/
def Obligations.EncodeOfDecode : Prop :=
  ∀ (w : Word) (i : Instr), decode w = .ok i → i.wellFormed = true ∧ encode i = w

/-- R106: the decoder accepts exactly the words that meet the procedure's `require` conditions. -/
def Obligations.DecoderAcceptsWhatIsRequired : Prop :=
  ∀ w : Word, (∃ i : Instr, decode w = .ok i) ↔ RequireHolds w

/-- R100: every word with an operation code from 0x0E to 0xFF is illegal, and every word either decodes to a
command or is illegal. -/
def Obligations.IllegalOpcodesRejected : Prop :=
  (∀ w : Word, 0x0E ≤ opNat w → Rejects w) ∧ (∀ w : Word, (∃ i : Instr, decode w = .ok i) ∨ Rejects w)

/-- R105: the ten worked encodings, each decoded to the command it stands for and encoded back. -/
def Obligations.WorkedEncodingsDecode : Prop :=
  ∀ p ∈ ([(0x01000A01#32, .setmode 1#8 .bpp24 .nonBurst 2), (0x01000600#32, .setmode 0#8 .bpp24 .burst 1),
      (0x01000C03#32, .setmode 3#8 .bpp16 .burst 2), (0x03000090#32, .calcddr 144),
      (0x04040005#32, .setovr .hsZero 5#8), (0x05FF0000#32, .clrovr .all), (0x0802007F#32, .setfld 2 0x7F#8),
      (0x0A000010#32, .wrstg 0x10#16), (0x0B020000#32, .rdres .ddr), (0x0D000001#32, .clrstat 1#8)] :
      List (Word × Instr)),
    decode p.1 = .ok p.2 ∧ encode p.2 = p.1

/-- R7, R8: the configurations the model admits are exactly those that pass the spec's check. -/
def Obligations.ConfigurationCheckIsTheSpecs : Prop :=
  ∀ c : Cfg, c.admitted = true ↔
    (c.ddrMax % 12 = 0 ∧ 12 ≤ c.ddrMax ∧ c.ddrMax ≤ 4000 ∧ 1 ≤ c.refMhz ∧ c.refMhz ≤ 65535 ∧ c.nDir = 1 ∧
      (∀ r : TimingReg, (regOffset c r).toNat % 4 = 0) ∧
      (∀ r r' : TimingReg, regOffset c r = regOffset c r' → r = r') ∧
      (∀ q : Interval, c.bias.get q = 1 ∨ c.bias.get q = 2))

/-! ### The step, reset and the command port -/

/-- R47, R106: when the oldest port event is a command word that decodes, the step takes it off the port and is the
command's execution. -/
def Obligations.StepRunsDecodedCommand : Prop :=
  ∀ (s : State) (w : Word) (rest : List PortEvent) (i : Instr),
    s.port = .command w :: rest → decode w = .ok i → step s = exec i { s with port := rest }

/-- R282, with the `require` conditions of R106: a word that fails them (an opcode above 0x0D, a nonzero fixed-zero field, a
selector outside its range, format code 3) is rejected, sets `STATUS.ILLEGAL` and changes nothing else of the block. -/
def Obligations.IllegalWordSetsIllegalOnly : Prop :=
  ∀ (s : State) (w : Word) (rest : List PortEvent), s.port = .command w :: rest → ¬ RequireHolds w →
    Rejects w ∧ step s = .next { s with port := rest, sticky := s.sticky ||| 0x02#8 }

/-- R50, R310, R312: the reset event puts every state element in its reset value, keeps the two histories, issues no
write and no report, and leaves the configuration; `STATUS` then reads 0. -/
def Obligations.ResetEventResetsTheBlock : Prop :=
  ∀ (s : State) (rest : List PortEvent), s.port = .reset :: rest →
    ∃ t : State, step s = .next t ∧ statusWord t = 0#32 ∧ t =
      { cfg := s.cfg
        mode := { valid := false, pclkDiv := 0#8, fmt := .bpp16, cls := .nonBurst, lanes := 1 }
        plan := { valid := false, pclk := 0#32, rawDdr := 0#32, ddr := 0#32, bp := 0#32
                  intervals := ⟨0#32, 0#32, 0#32, 0#32, 0#32, 0#32, 0#32, 0#32⟩
                  counts := ⟨0#32, 0#32, 0#32, 0#32, 0#32, 0#32, 0#32, 0#32, 0#32, 0#32, 0#32⟩
                  ovrUsed := false }
        ovr := ⟨⟨false, 0#8⟩, ⟨false, 0#8⟩, ⟨false, 0#8⟩, ⟨false, 0#8⟩, ⟨false, 0#8⟩, ⟨false, 0#8⟩, ⟨false, 0#8⟩,
          ⟨false, 0#8⟩, ⟨false, 0#8⟩, ⟨false, 0#8⟩, ⟨false, 0#8⟩⟩
        img := { dphyParam := 0#32, clkLaneTiming := 0#32, lpByteclk := 0#32, clkLaneSwt := 0#32 }
        imgValid := false
        stg := 0#32
        result := 0#32
        sticky := 0#8
        writes := s.writes
        reports := s.reports
        port := rest }

/-- R48, R50: the state a run begins in has every state element at its reset value and both histories empty. That the
command port then holds no event is the model's choice (log entry 4). -/
def Obligations.ResetStateHasTheSpecValues : Prop :=
  State.reset.mode = { valid := false, pclkDiv := 0#8, fmt := .bpp16, cls := .nonBurst, lanes := 1 } ∧
  State.reset.plan.valid = false ∧ State.reset.plan.ovrUsed = false ∧
  (∀ p ∈ resultSelectors State.reset, p.2.2 = 0#32) ∧
  (∀ q : Count, State.reset.ovr.get q = ⟨false, 0#8⟩) ∧
  State.reset.imgValid = false ∧ State.reset.result = 0#32 ∧ State.reset.sticky = 0#8 ∧
  State.reset.writes = [] ∧ State.reset.reports = [] ∧ State.reset.port = []

/-- The model's own choice (log entry 4), no rule of the spec: with no event on the port the block waits unchanged. -/
def Obligations.IdlePortWaits : Prop := ∀ s : State, s.port = [] → step s = .next s

/-- R280, R319: no event stops the block: `n` steps always complete, and each has taken one event off the port. -/
def Obligations.EveryRunGoesOn : Prop :=
  ∀ (n : Nat) (s : State), ∃ t : State, Host.Core.run Sys2Proof.core n s = .next t ∧ t.port = s.port.drop n

/-! ### SETMODE, COMPUTE, CALCDDR -/

/-- R120: SETMODE's encoding field by field, the words it rejects, and its effect: every field of MODE, nothing else;
`STATUS.MODE_VALID` then reads 1. -/
def Obligations.SetmodeLatchesMode : Prop :=
  (∀ (div : Byte) (fmt : BitVec 2) (cls l : BitVec 1), fmt ≠ 3#2 →
    decode (0x01#8 ++ 0#8 ++ 0#4 ++ l ++ cls ++ fmt ++ div : BitVec 32) =
      .ok (.setmode div (if fmt = 0#2 then .bpp16 else if fmt = 1#2 then .bpp18 else .bpp24)
        (if cls = 1#1 then .burst else .nonBurst) (l.toNat + 1))) ∧
  (∀ w : Word, opNat w = 0x01 → selNat w ≠ 0 ∨ immNat w / 2 ^ 12 ≠ 0 ∨ immNat w / 2 ^ 8 % 4 = 3 → Rejects w) ∧
  (∀ (div : Byte) (fmt : PixelFormat) (cls : VideoClass) (lanes : Nat) (s : State),
    exec (.setmode div fmt cls lanes) s =
      .next { s with mode := { valid := true, pclkDiv := div, fmt := fmt, cls := cls, lanes := lanes } } ∧
    (statusWord { s with mode := ⟨true, div, fmt, cls, lanes⟩ }).getLsbD 8 = true)

/-- R284: COMPUTE while no mode is latched sets `NO_MODE` and changes nothing else. -/
def Obligations.ComputeWithoutModeIsRejected : Prop :=
  ∀ s : State, s.mode.valid = false → exec .compute s = .next { s with sticky := s.sticky ||| 0x04#8 }

/-- R285: a zero raw frequency (a zero CALCDDR operand, a latched mode whose formula gives 0, a pixel-clock divider
above the reference) sets `DDR_ZERO` and changes nothing else: no commit, no report. -/
def Obligations.ZeroFrequencyIsRejected : Prop :=
  (∀ s : State, exec (.calcddr 0) s = .next { s with sticky := s.sticky ||| 0x08#8 }) ∧
  (∀ s : State, s.mode.valid = true → rawDdr s.params s.mode = 0 →
    exec .compute s = .next { s with sticky := s.sticky ||| 0x08#8 }) ∧
  (∀ s : State, s.mode.valid = true → s.params.refMhz < s.mode.pclkDiv.toNat + 1 →
    exec .compute s = .next { s with sticky := s.sticky ||| 0x08#8 })

/-- R121 to R126, R130, R132: COMPUTE with a latched mode and a raw frequency that is not 0 commits the plan of the
rounded frequency, or of `DDR_MAX` with `CFG_ERR` and one report where the rounded frequency exceeds it. -/
def Obligations.ComputeCommitsThePlan : Prop :=
  decode 0x02000000#32 = .ok .compute ∧
  ∀ s : State, s.mode.valid = true →
    let pclk := s.params.refMhz / (s.mode.pclkDiv.toNat + 1)
    let bits := if s.mode.fmt = .bpp16 then 16 else if s.mode.fmt = .bpp18 then 18 else 24
    let burst := if s.mode.cls = .burst then 2 else 1
    let raw := pclk * bits * burst / (2 * s.mode.lanes)
    let rounded := (raw + 11) / 12 * 12
    raw ≠ 0 →
      (rounded ≤ s.params.ddrMax → exec .compute s = .next (committed pclk raw rounded s)) ∧
      (s.params.ddrMax < rounded → exec .compute s = .next
        { committed pclk raw s.params.ddrMax s with
          sticky := s.sticky ||| 0x01#8
          reports := s.reports ++ [⟨raw, rounded, s.params.ddrMax⟩] })

/-- R131: CALCDDR's encoding, the words it rejects, and its effect for every operand: `DDR_ZERO` at 0, else the commit
with pixel clock 0, clamped, recorded and reported as COMPUTE does. -/
def Obligations.CalcddrCommitsThePlan : Prop :=
  (∀ raw : BitVec 16, decode (0x03#8 ++ 0#8 ++ raw : BitVec 32) = .ok (.calcddr raw.toNat)) ∧
  (∀ w : Word, opNat w = 0x03 → selNat w ≠ 0 → Rejects w) ∧
  ∀ (s : State) (raw : Nat),
    (raw = 0 → exec (.calcddr raw) s = .next { s with sticky := s.sticky ||| 0x08#8 }) ∧
    (raw ≠ 0 → (raw + 11) / 12 * 12 ≤ s.params.ddrMax →
      exec (.calcddr raw) s = .next (committed 0 raw ((raw + 11) / 12 * 12) s)) ∧
    (raw ≠ 0 → s.params.ddrMax < (raw + 11) / 12 * 12 →
      exec (.calcddr raw) s = .next
        { committed 0 raw s.params.ddrMax s with
          sticky := s.sticky ||| 0x01#8
          reports := s.reports ++ [⟨raw, (raw + 11) / 12 * 12, s.params.ddrMax⟩] })

/-- R125: the rounded frequency is the least multiple of 12 that is at least the raw one. -/
def Obligations.RoundingIsLeastMultiple : Prop :=
  ∀ raw : Nat, raw ≤ roundedDdr raw ∧ roundedDdr raw % 12 = 0 ∧
    ∀ m : Nat, m % 12 = 0 → raw ≤ m → roundedDdr raw ≤ m

/-- R126: whichever command resolves `raw`, the committed frequency is the rounded one up to `DDR_MAX` and `DDR_MAX`
above it, a multiple of 12 in every case; a clamp sets `CFG_ERR` and adds exactly one report and the command completes,
and without one no bit and no report changes (`rounded = DDR_MAX` is no clamp). -/
def Obligations.CommittedFrequencyIsLegal : Prop :=
  ∀ (s : State) (i : Instr) (raw : Nat), raw ≠ 0 →
    (i = .calcddr raw ∨ (i = .compute ∧ s.mode.valid = true ∧ rawDdr s.params s.mode = raw)) →
    ∃ t : State, exec i s = .next t ∧ t.plan.valid = true ∧
      t.plan.ddr.toNat % 12 = 0 ∧ 12 ≤ t.plan.ddr.toNat ∧ t.plan.ddr.toNat ≤ s.params.ddrMax ∧
      (s.params.ddrMax < (raw + 11) / 12 * 12 → t.plan.ddr.toNat = s.params.ddrMax ∧
        t.sticky = s.sticky ||| 0x01#8 ∧
        t.reports = s.reports ++ [⟨raw, (raw + 11) / 12 * 12, s.params.ddrMax⟩]) ∧
      ((raw + 11) / 12 * 12 ≤ s.params.ddrMax → t.plan.ddr.toNat = (raw + 11) / 12 * 12 ∧
        t.sticky = s.sticky ∧ t.reports = s.reports)

/-- R11: under the default parameters, and any that differ only in what is OPEN, a commit stores every value whole. -/
def Obligations.StoredValuesFitByDefault : Prop :=
  ∀ (c : AdmittedCfg) (pclk raw : Nat) (o : PerCount OvrEntry),
    c.params = Cfg.ofOpen c.params.toOpenParams → pclk ≤ 65535 → raw ≤ 1572840 → raw ≠ 0 →
    let d := resolvedDdr c.params raw
    let p := timing c.params d o
    (planOf pclk raw d p).pclk.toNat = pclk ∧ (planOf pclk raw d p).rawDdr.toNat = raw ∧
    (planOf pclk raw d p).ddr.toNat = d ∧ (planOf pclk raw d p).bp.toNat = 4000 / d ∧
    (∀ q : Interval, ((planOf pclk raw d p).intervals.get q).toNat = p.intervals.get q) ∧
    (∀ q : Count, ((planOf pclk raw d p).counts.get q).toNat = p.counts.get q)

/-! ### The timing calculator -/

/-- R155: the HS-prepare interval and its range, from 61 at 2000 and above to 2060 at 1. -/
def Obligations.HsPrepInterval : Prop :=
  ∀ (c : Cfg) (o : PerCount OvrEntry) (d : Nat), 1 ≤ d →
    (timing c d o).intervals.hsPrep = 60 + (4 * 500 + d - 1) / d ∧
    61 ≤ (timing c d o).intervals.hsPrep ∧ (timing c d o).intervals.hsPrep ≤ 2060 ∧
    (2000 ≤ d → (timing c d o).intervals.hsPrep = 61) ∧ (d = 1 → (timing c d o).intervals.hsPrep = 2060)

/-- R156: the HS-zero interval; its difference is never below 110, so the clamp does not fire. -/
def Obligations.HsZeroIntervalNeverClamps : Prop :=
  ∀ (c : Cfg) (o : PerCount OvrEntry) (d : Nat), 1 ≤ d →
    ((timing c d o).intervals.hsZero : Int) =
      170 + ((10 * 500 + d - 1) / d : Nat) - ((timing c d o).intervals.hsPrep : Int) ∧
    110 ≤ (timing c d o).intervals.hsZero

/-- R157: the HS-trail interval; the first argument of the maximum wins exactly at frequencies up to 33. -/
def Obligations.HsTrailInterval : Prop :=
  ∀ (c : AdmittedCfg) (o : PerCount OvrEntry) (d : Nat), 1 ≤ d →
    (timing c.params d o).intervals.hsTrail =
      max ((1 * 8 * 500 + d - 1) / d) (60 + (1 * 4 * 500 + d - 1) / d) + 30 ∧
    ((1 * 8 * 500 + d - 1) / d > 60 + (1 * 4 * 500 + d - 1) / d ↔ d ≤ 33)

/-- R158 to R162: the HS-exit and clock-lane intervals, each a base and a number of unit intervals; the clock-lane zero
interval is what prepare leaves of its bound, 0 where that is negative. -/
def Obligations.ParameterisedIntervals : Prop :=
  ∀ (c : Cfg) (o : PerCount OvrEntry) (d : Nat), 1 ≤ d →
    let ui := fun k : Nat => (k * 500 + d - 1) / d
    let i := (timing c d o).intervals
    i.hsExit = c.hsExitBase + ui c.hsExitUi ∧
    i.clkPrep = c.clkPrepBase + ui c.clkPrepUi ∧
    (i.clkPrep ≤ c.clkPzBase + ui c.clkPzUi → i.clkZero + i.clkPrep = c.clkPzBase + ui c.clkPzUi) ∧
    (c.clkPzBase + ui c.clkPzUi < i.clkPrep → i.clkZero = 0) ∧
    i.clkTrail = c.clkTrailBase + ui c.clkTrailUi ∧
    i.clkExit = c.clkExitBase + ui c.clkExitUi

/-- R151, R154: the count of an interval with no override: the ticks less the bias, 0 where that is negative, in both
period modes and both rounding modes. -/
def Obligations.IntervalCountFormula : Prop :=
  ∀ (c : Cfg) (d : Nat) (q : Interval),
    let t := (timingIntervals c d).get q
    let n := match c.periodMode, c.rm.get q with
      | .intPeriod, .ceil => (t + 4000 / d - 1) / (4000 / d)
      | .intPeriod, .nearest => (t + 4000 / d / 2) / (4000 / d)
      | .exact, .ceil => (t * d + 4000 - 1) / 4000
      | .exact, .nearest => (t * d + 4000 / 2) / 4000
    (n ≤ c.bias.get q → intervalCount c d q = 0) ∧ (c.bias.get q < n → intervalCount c d q + c.bias.get q = n)

/-- R155 to R174 with the spec's defaults, in both period modes: what CALCDDR commits for every operand that is not 0,
every enabled override in its place, the switch-over counters from the final values of the others. -/
def Obligations.CalcddrCommitsTheSpecCounts : Prop :=
  ∀ (s : State) (p : OpenParams) (m : PeriodMode) (raw : Nat),
    s.params = { Cfg.ofOpen p with periodMode := m } → 1 ≤ raw → raw ≤ 65535 →
    ∃ t : State, exec (.calcddr raw) s = .next t ∧
      let rounded := (raw + 11) / 12 * 12
      let d := if p.ddrMax < rounded then p.ddrMax else rounded
      let up := fun x : Nat => match m with
        | .intPeriod => (x + 4000 / d - 1) / (4000 / d)
        | .exact => (x * d + 3999) / 4000
      let near := fun x : Nat => match m with
        | .intPeriod => (x + 4000 / d / 2) / (4000 / d)
        | .exact => (x * d + 2000) / 4000
      let ovr := fun (q : Count) (v : Nat) => if (s.ovr.get q).en = true then (s.ovr.get q).val.toNat else v
      let hp := 60 + (2000 + d - 1) / d
      let hz := 170 + (5000 + d - 1) / d - hp
      let ht := max ((4000 + d - 1) / d) hp + 30
      let c := fun q : Count => (t.plan.counts.get q).toNat
      t.plan.valid = true ∧ t.plan.pclk.toNat = 0 ∧ t.plan.rawDdr.toNat = raw ∧ t.plan.ddr.toNat = d ∧
      t.plan.bp.toNat = 4000 / d ∧
      t.plan.intervals.map BitVec.toNat = ⟨hp, hz, ht, 130, 60, 270, 90, 130⟩ ∧
      c .hsPrep = ovr .hsPrep (near hp - 1) ∧ c .hsZero = ovr .hsZero (up hz - 2) ∧
      c .hsTrail = ovr .hsTrail (up ht - 1) ∧ c .hsExit = ovr .hsExit (up 130 - 1) ∧
      c .clkPrep = ovr .clkPrep (near 60 - 1) ∧ c .clkZero = ovr .clkZero (up 270 - 2) ∧
      c .clkTrail = ovr .clkTrail (up 90 - 1) ∧ c .clkExit = ovr .clkExit (up 130 - 1) ∧
      c .lpDiv = ovr .lpDiv ((d + 47) / 48) ∧
      c .clkHs2Lp = ovr .clkHs2Lp (c .clkTrail + c .clkExit + c .lpDiv + 2) ∧
      c .clkLp2Hs = ovr .clkLp2Hs (4 * c .lpDiv + c .clkPrep + c .clkZero + 2)

/-- R163, R167: with the source's constants the rounded HS-prepare tick count is at least 1 in both period modes, so its
clamp never fires; with the default 60 ns and the integer period, the clock-lane prepare clamp fires exactly where
`round_div(60, bp) = 0`, that is at frequencies up to 33, and the count is then 0. -/
def Obligations.PrepareCountClamps : Prop :=
  (∀ (c : Cfg) (d : Nat), 1 ≤ d → d ≤ 4000 → 1 ≤ ticks c d .nearest (timingIntervals c d).hsPrep) ∧
  (∀ (c : Cfg) (d : Nat), c = Cfg.ofOpen c.toOpenParams → 1 ≤ d → d ≤ 4000 →
    (ticks c d .nearest (timingIntervals c d).clkPrep = 0 ↔ 121 ≤ 4000 / d) ∧ (121 ≤ 4000 / d ↔ d ≤ 33) ∧
    (d ≤ 33 → intervalCount c d .clkPrep = 0))

/-- R171: the low-power divider with no override, from 1 at frequencies up to 48 to 84 at 4000. -/
def Obligations.LpDivFormulaAndRange : Prop :=
  ∀ (c : Cfg) (o : PerCount OvrEntry) (d : Nat), o.lpDiv.en = false → 1 ≤ d → d ≤ 4000 →
    (timing c d o).counts.lpDiv = (d + 48 - 1) / 48 ∧
    1 ≤ (timing c d o).counts.lpDiv ∧ (timing c d o).counts.lpDiv ≤ 84 ∧
    (d ≤ 48 → (timing c d o).counts.lpDiv = 1) ∧ (d = 4000 → (timing c d o).counts.lpDiv = 84)

/-- R172, R173, R204: the switch-over counters from the final values of the counts they combine; an override of a switch
counter replaces its own final value. -/
def Obligations.SwitchCountersUseFinalCounts : Prop :=
  ∀ (c : Cfg) (o : PerCount OvrEntry) (d : Nat),
    let n := (timing c d o).counts
    (o.clkHs2Lp.en = true → n.clkHs2Lp = o.clkHs2Lp.val.toNat) ∧
    (o.clkHs2Lp.en = false → n.clkHs2Lp = n.clkTrail + n.clkExit + c.kHl * n.lpDiv + c.eHl) ∧
    (o.clkLp2Hs.en = true → n.clkLp2Hs = o.clkLp2Hs.val.toNat) ∧
    (o.clkLp2Hs.en = false → n.clkLp2Hs = c.kLh * n.lpDiv + n.clkPrep + n.clkZero + c.eLh)

/-! ### Overrides -/

/-- R201: SETOVR's encoding, the words it rejects, and its effect: one entry of OVR, nothing else. -/
def Obligations.SetovrEnablesOneEntry : Prop :=
  (∀ p ∈ countSelectors, ∀ v : Byte, decode (0x04#8 ++ p.1 ++ 0#8 ++ v : BitVec 32) = .ok (.setovr p.2 v)) ∧
  (∀ w : Word, opNat w = 0x04 → selNat w < 0x03 ∨ 0x0D < selNat w ∨ immNat w / 2 ^ 8 ≠ 0 → Rejects w) ∧
  (∀ (q : Count) (v : Byte) (s : State), ∃ o : PerCount OvrEntry,
    exec (.setovr q v) s = .next { s with ovr := o } ∧
    o.get q = ⟨true, v⟩ ∧ ∀ q' : Count, q' ≠ q → o.get q' = s.ovr.get q')

/-- R202: CLROVR's encoding, the words it rejects, and its effect: one entry of OVR, or all eleven, disabled with value
0, and nothing else. -/
def Obligations.ClrovrDisablesEntries : Prop :=
  (∀ p ∈ countSelectors, decode (0x05#8 ++ p.1 ++ 0#16 : BitVec 32) = .ok (.clrovr (.one p.2))) ∧
  decode 0x05FF0000#32 = .ok (.clrovr .all) ∧
  (∀ w : Word, opNat w = 0x05 →
    selNat w < 0x03 ∨ (0x0D < selNat w ∧ selNat w ≠ 0xFF) ∨ immNat w ≠ 0 → Rejects w) ∧
  (∀ (q : Count) (s : State), ∃ o : PerCount OvrEntry,
    exec (.clrovr (.one q)) s = .next { s with ovr := o } ∧
    o.get q = ⟨false, 0#8⟩ ∧ ∀ q' : Count, q' ≠ q → o.get q' = s.ovr.get q') ∧
  (∀ s : State, ∃ o : PerCount OvrEntry,
    exec (.clrovr .all) s = .next { s with ovr := o } ∧ ∀ q : Count, o.get q = ⟨false, 0#8⟩)

/-- R203: an enabled override is the final count whatever the formula gives; overrides never change an interval, and
with the same raw and resolved frequency they never change `PLAN.ddr`, `PLAN.bp` or `PLAN.raw_ddr`. -/
def Obligations.OverrideReplacesTheFinalCount : Prop :=
  (∀ (c : Cfg) (d : Nat) (o : PerCount OvrEntry) (q : Count), (o.get q).en = true →
    (timing c d o).counts.get q = (o.get q).val.toNat) ∧
  (∀ (s t t' : State) (o : PerCount OvrEntry) (i : Instr), (i = .compute ∨ ∃ raw : Nat, i = .calcddr raw) →
    exec i s = .next t → exec i { s with ovr := o } = .next t' →
    t'.plan.intervals = t.plan.intervals ∧ t'.plan.ddr = t.plan.ddr ∧ t'.plan.bp = t.plan.bp ∧
    t'.plan.rawDdr = t.plan.rawDdr)

/-- R205: after a commit `PLAN.ovr_used` is 1 exactly when some override was enabled, and `STATUS.OVR_USED` reads it. -/
def Obligations.OvrUsedTellsOverrides : Prop :=
  ∀ (s t : State) (i : Instr),
    ((i = .compute ∧ s.mode.valid = true ∧ rawDdr s.params s.mode ≠ 0) ∨ ∃ raw : Nat, i = .calcddr raw ∧ raw ≠ 0) →
    exec i s = .next t →
    (t.plan.ovrUsed = true ↔ ∃ q : Count, (s.ovr.get q).en = true) ∧ (statusWord t).getLsbD 11 = t.plan.ovrUsed

/-- R316: SETOVR and CLROVR change `OVR` only, so PLAN and the images are those of the last commit, and PACK and WRITE
then write the words they would have written without it. -/
def Obligations.OverridesWaitForTheNextCommit : Prop :=
  ∀ (s t u v : State) (i : Instr), ((∃ q x, i = .setovr q x) ∨ ∃ g, i = .clrovr g) → exec i s = .next t →
    t = { s with ovr := t.ovr } ∧
    (execAll [.pack, .write] s = .next u → execAll [.pack, .write] t = .next v → v.writes = u.writes)

/-- R201 (from R203 and R222): a plan whose eleven counts are all overridden never raises `FIELD_OVF`. -/
def Obligations.OverriddenCountsNeverOverflow : Prop :=
  ∀ (s t u : State) (raw : Nat), raw ≠ 0 → (∀ q : Count, (s.ovr.get q).en = true) →
    exec (.calcddr raw) s = .next t → exec .pack t = .next u → u.sticky = t.sticky ∧ u.imgValid = true

/-! ### The packer and the MMIO writes -/

/-- R221, R222: the packed word is the sum of its four fields, and byte field `k` reads as the `k`-th value cut by the
policy: exact when it fits, and no field reaches another. -/
def Obligations.PackedFieldsAreIndependent : Prop :=
  ∀ (p : FieldPolicy) (b : Fin 4 → Nat),
    let f := fun v : Nat => if p = .truncate then v % 256 else min v 255
    (pack4 p (b 0) (b 1) (b 2) (b 3)).toNat = f (b 0) + f (b 1) * 2 ^ 8 + f (b 2) * 2 ^ 16 + f (b 3) * 2 ^ 24 ∧
    (∀ k : Fin 4, ((pack4 p (b 0) (b 1) (b 2) (b 3)).extractLsb' (8 * k.val) 8).toNat = f (b k)) ∧
    (∀ k : Fin 4, b k ≤ 255 → f (b k) = b k)

/-- R223, R286: PACK's encoding, the words it rejects, and its effect: `NO_PLAN` and nothing else while PLAN is not
valid; else the four images by the register layouts, `IMG_VALID`, `FIELD_OVF` exactly when a count is above 255. -/
def Obligations.PackBuildsTheImages : Prop :=
  decode 0x06000000#32 = .ok .pack ∧ (∀ w : Word, opNat w = 0x06 → w ≠ 0x06000000#32 → Rejects w) ∧
  (∀ s : State, s.plan.valid = false → exec .pack s = .next { s with sticky := s.sticky ||| 0x10#8 }) ∧
  (∀ s : State, s.plan.valid = true →
    let n := fun q : Count => (s.plan.counts.get q).toNat
    let pk := pack4 s.params.fieldPolicy
    let t := { s with
      img := { dphyParam := pk (n .hsPrep) (n .hsZero) (n .hsTrail) (n .hsExit)
               clkLaneTiming := pk (n .clkPrep) (n .clkZero) (n .clkTrail) (n .clkExit)
               lpByteclk := pk (n .lpDiv) 0 0 0
               clkLaneSwt := pk (n .clkHs2Lp) (n .clkLp2Hs) 0 0 }
      imgValid := true }
    ((∀ q : Count, n q ≤ 255) → exec .pack s = .next t) ∧
    ((∃ q : Count, 255 < n q) → exec .pack s = .next { t with sticky := s.sticky ||| 0x40#8 }))

/-- R224, R225, R287: WRITE's encoding, the words it rejects, and its effect: `NO_IMAGE` and no write while there is no
valid image; else the four writes in the fixed order, and nothing else changes. -/
def Obligations.WriteSendsTheImagesInOrder : Prop :=
  decode 0x07000000#32 = .ok .write ∧ (∀ w : Word, opNat w = 0x07 → w ≠ 0x07000000#32 → Rejects w) ∧
  (∀ s : State, s.imgValid = false → exec .write s = .next { s with sticky := s.sticky ||| 0x20#8 }) ∧
  (∀ s : State, s.imgValid = true → exec .write s = .next { s with writes := s.writes ++
    [⟨s.params.offDphyParam, s.img.dphyParam⟩, ⟨s.params.offClkLaneTiming, s.img.clkLaneTiming⟩,
      ⟨s.params.offLpByteclk, s.img.lpByteclk⟩, ⟨s.params.offClkLaneSwt, s.img.clkLaneSwt⟩] })

/-- R73, R75, R229: after WRITE the last word delivered to each timing register is its image, byte `k` at offset `k` of the
register, and every other byte of the window is as before. -/
def Obligations.WriteDeliversEachRegister : Prop :=
  ∀ s t : State, s.imgValid = true → exec .write s = .next t →
    (∀ (r : TimingReg) (k : Nat), k < 4 →
      Memory.read t.window ((regOffset s.params r).toNat + k) = some ((s.img.get r).extractLsb' (8 * k) 8)) ∧
    (∀ a : Nat, (∀ r : TimingReg, a < (regOffset s.params r).toNat ∨ (regOffset s.params r).toNat + 4 ≤ a) →
      Memory.read t.window a = Memory.read s.window a)

/-- R226: SETFLD's encoding, the words it rejects, and its effect: one byte field of STG, the other three and every
other field of the state unchanged. -/
def Obligations.SetfldReplacesOneByte : Prop :=
  (∀ (k v : Byte), k.toNat ≤ 3 → decode (0x08#8 ++ k ++ 0#8 ++ v : BitVec 32) = .ok (.setfld k.toNat v)) ∧
  (∀ w : Word, opNat w = 0x08 → 3 < selNat w ∨ immNat w / 2 ^ 8 ≠ 0 → Rejects w) ∧
  (∀ (s : State) (k : Nat) (v : Byte), k ≤ 3 → ∃ x : Word,
    exec (.setfld k v) s = .next { s with stg := x } ∧ x.extractLsb' (8 * k) 8 = v ∧
    ∀ j : Nat, j ≤ 3 → j ≠ k → x.extractLsb' (8 * j) 8 = s.stg.extractLsb' (8 * j) 8)

/-- R227: CLRSTG's encoding, the words it rejects, and its effect. -/
def Obligations.ClrstgClearsTheStagingWord : Prop :=
  decode 0x09000000#32 = .ok .clrstg ∧ (∀ w : Word, opNat w = 0x09 → w ≠ 0x09000000#32 → Rejects w) ∧
  (∀ s : State, exec .clrstg s = .next { s with stg := 0#32 })

/-- R228, R289: WRSTG's encoding, the words it rejects, and its effect for every offset: `MISALIGN` and no write where it
is no multiple of 4, else one write of STG, which stays. -/
def Obligations.WrstgWritesTheStagingWord : Prop :=
  (∀ off : Half, decode (0x0A#8 ++ 0#8 ++ off : BitVec 32) = .ok (.wrstg off)) ∧
  (∀ w : Word, opNat w = 0x0A → selNat w ≠ 0 → Rejects w) ∧
  (∀ (s : State) (off : Half), off.toNat % 4 ≠ 0 →
    exec (.wrstg off) s = .next { s with sticky := s.sticky ||| 0x80#8 }) ∧
  (∀ (s : State) (off : Half), off.toNat % 4 = 0 →
    exec (.wrstg off) s = .next { s with writes := s.writes ++ [⟨off, s.stg⟩] })

/-- R73, R75: after a WRSTG the four bytes of its register are those of STG and every other byte of the window is as
before; after a misaligned one every byte is. -/
def Obligations.WrstgDeliversFourBytes : Prop :=
  ∀ (s t : State) (off : Half), exec (.wrstg off) s = .next t →
    (off.toNat % 4 = 0 →
      (∀ k : Nat, k < 4 → Memory.read t.window (off.toNat + k) = some (s.stg.extractLsb' (8 * k) 8)) ∧
      (∀ a : Nat, a < off.toNat ∨ off.toNat + 4 ≤ a → Memory.read t.window a = Memory.read s.window a)) ∧
    (off.toNat % 4 ≠ 0 → ∀ a : Nat, Memory.read t.window a = Memory.read s.window a)

/-- The basic law of the delivered window: a byte delivered reads back, and every other offset reads as before. -/
def Obligations.WindowReadAfterWrite : Prop :=
  ∀ (m : Memory) (a b : Nat) (v : Byte),
    Memory.read (Memory.write m a v) b = if b = a then some v else Memory.read m b

/-! ### NOP, RDRES, RDSTAT, CLRSTAT -/

/-- R260: NOP's encoding is the zero word alone, and it changes nothing. -/
def Obligations.NopChangesNothing : Prop :=
  decode 0x00000000#32 = .ok .nop ∧ (∀ w : Word, opNat w = 0x00 → w ≠ 0x00000000#32 → Rejects w) ∧
  (∀ s : State, exec .nop s = .next s)

/-- R93, R261, R264: RDRES's encoding, the words it rejects, and its effect for each of the 29 selectors: the stored
field, or the override enables bit by bit, goes to RESULT and nothing else changes. -/
def Obligations.RdresReadsTheNamedField : Prop :=
  (∀ w : Word, opNat w = 0x0B → 0x1C < selNat w ∨ immNat w ≠ 0 → Rejects w) ∧
  (∀ s : State, ∀ p ∈ resultSelectors s,
    decode (0x0B#8 ++ p.1 ++ 0#16 : BitVec 32) = .ok (.rdres p.2.1) ∧
    exec (.rdres p.2.1) s = .next { s with result := p.2.2 }) ∧
  decode 0x0B1C0000#32 = .ok (.rdres .ovrMask) ∧
  (∀ s : State, exec (.rdres .ovrMask) s = .next { s with result :=
    (0#21 ++ BitVec.ofBool s.ovr.clkLp2Hs.en ++ BitVec.ofBool s.ovr.clkHs2Lp.en ++ BitVec.ofBool s.ovr.lpDiv.en ++
      BitVec.ofBool s.ovr.clkExit.en ++ BitVec.ofBool s.ovr.clkTrail.en ++ BitVec.ofBool s.ovr.clkZero.en ++
      BitVec.ofBool s.ovr.clkPrep.en ++ BitVec.ofBool s.ovr.hsExit.en ++ BitVec.ofBool s.ovr.hsTrail.en ++
      BitVec.ofBool s.ovr.hsZero.en ++ BitVec.ofBool s.ovr.hsPrep.en : BitVec 32) })

/-- R262: RDSTAT's encoding, the words it rejects, and its effect: the sticky bits and the four mirrors go to RESULT, and
nothing else changes. -/
def Obligations.RdstatReadsTheStatus : Prop :=
  decode 0x0C000000#32 = .ok .rdstat ∧ (∀ w : Word, opNat w = 0x0C → w ≠ 0x0C000000#32 → Rejects w) ∧
  (∀ s : State, ∃ w : Word, exec .rdstat s = .next { s with result := w } ∧
    w.toNat = s.sticky.toNat + s.mode.valid.toNat * 2 ^ 8 + s.plan.valid.toNat * 2 ^ 9 + s.imgValid.toNat * 2 ^ 10 +
      s.plan.ovrUsed.toNat * 2 ^ 11)

/-- R263: CLRSTAT's encoding, the words it rejects, and its effect: the sticky bits its mask names are cleared, the
others and every other field are unchanged. -/
def Obligations.ClrstatClearsTheMaskBits : Prop :=
  (∀ m : Byte, decode (0x0D#8 ++ 0#8 ++ 0#8 ++ m : BitVec 32) = .ok (.clrstat m)) ∧
  (∀ w : Word, opNat w = 0x0D → selNat w ≠ 0 ∨ immNat w / 2 ^ 8 ≠ 0 → Rejects w) ∧
  (∀ (s : State) (m : Byte), ∃ b : Byte, exec (.clrstat m) s = .next { s with sticky := b } ∧
    ∀ k : Nat, k < 8 → b.getLsbD k = (s.sticky.getLsbD k && !m.getLsbD k))

/-! ### The error model -/

/-- R290, R291: a command other than CLRSTAT sets at most one sticky bit, one that the table of errors gives it; a
command the table does not name sets none. -/
def Obligations.OneErrorBitPerCommand : Prop :=
  ∀ (s t : State) (i : Instr), (∀ m : Byte, i ≠ .clrstat m) → exec i s = .next t →
    t.sticky = s.sticky ∨ ∃ e ∈ raisedBy i, t.sticky = s.sticky ||| (1#8 <<< e.code)

/-- R46: a set sticky bit stays set under every command but a CLRSTAT whose mask has a 1 at it, and that clears it;
setting it again leaves it 1. An illegal word clears none. -/
def Obligations.StickyBitsStayUntilCleared : Prop :=
  (∀ (s t : State) (i : Instr) (k : Nat), k < 8 → exec i s = .next t → s.sticky.getLsbD k = true →
    (t.sticky.getLsbD k = false ↔ ∃ m : Byte, i = .clrstat m ∧ m.getLsbD k = true)) ∧
  (∀ (s t : State) (w : Word) (rest : List PortEvent) (k : Nat), s.port = .command w :: rest → Rejects w →
    step s = .next t → s.sticky.getLsbD k = true → t.sticky.getLsbD k = true)

/-- R280, R283: a command that raises a rejecting error changes nothing but the sticky bits: no partial effect, no
MMIO write, no report. -/
def Obligations.RejectedCommandHasNoOtherEffect : Prop :=
  ∀ (s t : State) (i : Instr) (e : ErrBit), exec i s = .next t → e.rejecting = true →
    s.sticky.getLsbD e.code = false → t.sticky.getLsbD e.code = true →
    t = { s with sticky := s.sticky ||| (1#8 <<< e.code) }

/-- R43: no command's behaviour depends on a sticky error bit. From two states that differ in them only, every command
gives states that differ in them only, but for RESULT after RDSTAT, which reads them. -/
def Obligations.StickyBitsNeverGate : Prop :=
  ∀ (s : State) (b : Byte) (i : Instr), ∃ t t' : State,
    exec i s = .next t ∧ exec i { s with sticky := b } = .next t' ∧
    { t' with sticky := t.sticky, result := t.result } = t ∧ (i ≠ .rdstat → t'.result = t.result)

/-- R72, R77: nothing the block has written is ever read back. From two states that differ in the history of writes
only, every command gives states that differ in it only, and appends the same writes. -/
def Obligations.WrittenRegistersAreNeverRead : Prop :=
  ∀ (s : State) (ws : List MmioWrite) (i : Instr), ∃ (t : State) (es : List MmioWrite),
    exec i s = .next { t with writes := s.writes ++ es } ∧
    exec i { s with writes := ws } = .next { t with writes := ws ++ es }

/-! ### Invariants and sequences -/

/-- R32, R39, R48, R49: the invariant holds at reset. -/
def Obligations.InvariantAtReset : Prop := Inv State.reset

/-- R32, R39, R49, R71, R74, R281, R317: whatever the next port event is, a step from a state with the invariant gives a
state with it: a legal mode, a plan that is reset or one whole commit, images only of the committed plan, aligned writes
only, reports only of true clamps. -/
def Obligations.StepKeepsTheInvariant : Prop :=
  ∀ s t : State, Inv s → step s = .next t → Inv t

/-- R48: both histories are empty at the start of a run and are only appended to, over any number of port events,
resets among them. -/
def Obligations.HistoriesOnlyGrow : Prop :=
  State.reset.writes = [] ∧ State.reset.reports = [] ∧
  ∀ (n : Nat) (s t : State), Host.Core.run Sys2Proof.core n s = .next t →
    (∃ ws : List MmioWrite, t.writes = s.writes ++ ws) ∧ (∃ rs : List Report, t.reports = s.reports ++ rs)

/-- R31, R310: the configuration is fixed for the life of a run: no number of port events changes it. -/
def Obligations.ConfigurationIsFixed : Prop :=
  ∀ (n : Nat) (s t : State), Host.Core.run Sys2Proof.core n s = .next t → t.cfg = s.cfg

/-- R317: every commit clears `IMG_VALID`, so a WRITE right after it raises `NO_IMAGE` and writes nothing; a rejected
COMPUTE or CALCDDR clears nothing. -/
def Obligations.CommitInvalidatesTheImages : Prop :=
  ∀ (s t : State) (i : Instr), exec i s = .next t →
    (((i = .compute ∧ s.mode.valid = true ∧ rawDdr s.params s.mode ≠ 0) ∨ ∃ raw : Nat, i = .calcddr raw ∧ raw ≠ 0) →
      t.imgValid = false ∧ exec .write t = .next { t with sticky := t.sticky ||| 0x20#8 }) ∧
    (((i = .compute ∧ (s.mode.valid = false ∨ rawDdr s.params s.mode = 0)) ∨ i = .calcddr 0) →
      t.imgValid = s.imgValid ∧ t.img = s.img)

/-- R133: two COMPUTEs with no SETMODE, SETOVR, CLROVR or reset between them, whatever other commands stand there, commit
identical plans; and two BRINGUP expansions with only such commands between them append the same four writes. -/
def Obligations.ComputeIsIdempotent : Prop :=
  ∀ (s t u v : State) (is : List Instr), s.mode.valid = true → rawDdr s.params s.mode ≠ 0 →
    (∀ i ∈ is, (∀ d f c l, i ≠ .setmode d f c l) ∧ (∀ q x, i ≠ .setovr q x) ∧ (∀ g, i ≠ .clrovr g)) →
    (exec .compute s = .next t → execAll is t = .next u → exec .compute u = .next v → v.plan = t.plan) ∧
    (execAll (expand .bringup) s = .next t → execAll is t = .next u → execAll (expand .bringup) u = .next v →
      ∃ ws : List MmioWrite, ws.length = 4 ∧ t.writes = s.writes ++ ws ∧ v.writes = u.writes ++ ws)

/-- R104: the two pseudo-instructions of the generic packer: SETSTG fills all four bytes of STG whatever it held, and
WRREG then writes that word at its aligned offset. -/
def Obligations.GenericPackerSequence : Prop :=
  (∀ (s : State) (a b c d : Byte),
    execAll (expand (.setstg a b c d)) s = .next { s with stg := (d ++ c ++ b ++ a : BitVec 32) }) ∧
  (∀ (s : State) (off : Half) (a b c d : Byte), off.toNat % 4 = 0 →
    execAll (expand (.wrreg off a b c d)) s = .next { s with
      stg := (d ++ c ++ b ++ a : BitVec 32)
      writes := s.writes ++ [⟨off, (d ++ c ++ b ++ a : BitVec 32)⟩] })
end

