-- ==== Sys2Proof/Laws/Memory.lean ====
section
/-! SUPPORT. The delivered window keeps its canonical form: every memory operation does, and so does every window. -/

namespace Sys2Proof.Machine

/-- The first offset of a memory, if any, is above `a`. -/
def Memory.above (a : Nat) : Memory → Prop
  | [] => True
  | (b, _) :: _ => a < b

theorem Memory.wf_cons (a : Nat) (v : Byte) (m : Memory) :
    Memory.wf ((a, v) :: m) = true ↔ Memory.above a m ∧ Memory.wf m = true := by
  cases m with
  | nil => simp [Memory.wf, Memory.above]
  | cons c m => obtain ⟨b, u⟩ := c; simp [Memory.wf, Memory.above]

theorem Memory.above_write {a b : Nat} (v : Byte) (m : Memory) (hab : a < b) (h : Memory.above a m) :
    Memory.above a (Memory.write m b v) := by
  cases m with
  | nil => simpa [Memory.write, Memory.above] using hab
  | cons c m =>
    obtain ⟨d, u⟩ := c
    simp only [Memory.write]
    split
    · simpa [Memory.above] using hab
    · split
      · simpa [Memory.above] using hab
      · simpa [Memory.above] using h

/-- Delivering a byte keeps the canonical form. -/
theorem Memory.wf_write (m : Memory) (a : Nat) (v : Byte) (h : Memory.wf m = true) :
    Memory.wf (Memory.write m a v) = true := by
  induction m with
  | nil => simp [Memory.write, Memory.wf]
  | cons c m ih =>
    obtain ⟨b, u⟩ := c
    have hb := (Memory.wf_cons b u m).1 h
    simp only [Memory.write]
    split
    · exact (Memory.wf_cons _ _ _).2 ⟨by simpa [Memory.above], h⟩
    · split
      · next _ hab => subst hab; exact (Memory.wf_cons _ _ _).2 hb
      · exact (Memory.wf_cons _ _ _).2 ⟨Memory.above_write v m (by omega) hb.1, ih hb.2⟩

/-- Delivering a word keeps the canonical form. -/
theorem Memory.wf_writeWord (m : Memory) (a : Nat) (w : Word) (h : Memory.wf m = true) :
    Memory.wf (Memory.writeWord m a w) = true :=
  Memory.wf_write _ _ _ (Memory.wf_write _ _ _ (Memory.wf_write _ _ _ (Memory.wf_write _ _ _ h)))

theorem Memory.wf_foldl_writeWord (ws : List MmioWrite) (m : Memory) (h : Memory.wf m = true) :
    Memory.wf (ws.foldl (fun m e => Memory.writeWord m e.off.toNat e.value) m) = true := by
  induction ws generalizing m with
  | nil => exact h
  | cons e ws ih => exact ih _ (Memory.wf_writeWord _ _ _ h)

/-- The window of every history has the canonical form. -/
theorem windowOf_wf (ws : List MmioWrite) : Memory.wf (windowOf ws) = true :=
  Memory.wf_foldl_writeWord ws [] rfl

/-- The window of every state has the canonical form, the reset state's among them. -/
theorem State.window_wf (s : State) : Memory.wf s.window = true := windowOf_wf s.writes

/-- One more write in the history is one more word delivered. -/
theorem windowOf_append (ws : List MmioWrite) (e : MmioWrite) :
    windowOf (ws ++ [e]) = Memory.writeWord (windowOf ws) e.off.toNat e.value := by
  simp [windowOf]

end Sys2Proof.Machine
end

