-- ==== Sys2Proof/Laws/State.lean ====
section
/-! SUPPORT. One lemma per field per update of the state, so that no proof unfolds an update. -/

namespace Sys2Proof.Machine.State

/-! ### `withMode` -/

@[simp] theorem withMode_cfg (s : State) (m : Mode) : (s.withMode m).cfg = s.cfg := rfl
@[simp] theorem withMode_mode (s : State) (m : Mode) : (s.withMode m).mode = m := rfl
@[simp] theorem withMode_plan (s : State) (m : Mode) : (s.withMode m).plan = s.plan := rfl
@[simp] theorem withMode_ovr (s : State) (m : Mode) : (s.withMode m).ovr = s.ovr := rfl
@[simp] theorem withMode_img (s : State) (m : Mode) : (s.withMode m).img = s.img := rfl
@[simp] theorem withMode_imgValid (s : State) (m : Mode) : (s.withMode m).imgValid = s.imgValid := rfl
@[simp] theorem withMode_stg (s : State) (m : Mode) : (s.withMode m).stg = s.stg := rfl
@[simp] theorem withMode_result (s : State) (m : Mode) : (s.withMode m).result = s.result := rfl
@[simp] theorem withMode_sticky (s : State) (m : Mode) : (s.withMode m).sticky = s.sticky := rfl
@[simp] theorem withMode_writes (s : State) (m : Mode) : (s.withMode m).writes = s.writes := rfl
@[simp] theorem withMode_reports (s : State) (m : Mode) : (s.withMode m).reports = s.reports := rfl
@[simp] theorem withMode_port (s : State) (m : Mode) : (s.withMode m).port = s.port := rfl
@[simp] theorem withMode_params (s : State) (m : Mode) : (s.withMode m).params = s.params := rfl

/-! ### `withPlan` -/

@[simp] theorem withPlan_cfg (s : State) (p : Plan) : (s.withPlan p).cfg = s.cfg := rfl
@[simp] theorem withPlan_mode (s : State) (p : Plan) : (s.withPlan p).mode = s.mode := rfl
@[simp] theorem withPlan_plan (s : State) (p : Plan) : (s.withPlan p).plan = p := rfl
@[simp] theorem withPlan_ovr (s : State) (p : Plan) : (s.withPlan p).ovr = s.ovr := rfl
@[simp] theorem withPlan_img (s : State) (p : Plan) : (s.withPlan p).img = s.img := rfl
@[simp] theorem withPlan_imgValid (s : State) (p : Plan) : (s.withPlan p).imgValid = false := rfl
@[simp] theorem withPlan_stg (s : State) (p : Plan) : (s.withPlan p).stg = s.stg := rfl
@[simp] theorem withPlan_result (s : State) (p : Plan) : (s.withPlan p).result = s.result := rfl
@[simp] theorem withPlan_sticky (s : State) (p : Plan) : (s.withPlan p).sticky = s.sticky := rfl
@[simp] theorem withPlan_writes (s : State) (p : Plan) : (s.withPlan p).writes = s.writes := rfl
@[simp] theorem withPlan_reports (s : State) (p : Plan) : (s.withPlan p).reports = s.reports := rfl
@[simp] theorem withPlan_port (s : State) (p : Plan) : (s.withPlan p).port = s.port := rfl
@[simp] theorem withPlan_params (s : State) (p : Plan) : (s.withPlan p).params = s.params := rfl

/-! ### `withOvr` -/

@[simp] theorem withOvr_cfg (s : State) (o : PerCount OvrEntry) : (s.withOvr o).cfg = s.cfg := rfl
@[simp] theorem withOvr_mode (s : State) (o : PerCount OvrEntry) : (s.withOvr o).mode = s.mode := rfl
@[simp] theorem withOvr_plan (s : State) (o : PerCount OvrEntry) : (s.withOvr o).plan = s.plan := rfl
@[simp] theorem withOvr_ovr (s : State) (o : PerCount OvrEntry) : (s.withOvr o).ovr = o := rfl
@[simp] theorem withOvr_img (s : State) (o : PerCount OvrEntry) : (s.withOvr o).img = s.img := rfl
@[simp] theorem withOvr_imgValid (s : State) (o : PerCount OvrEntry) : (s.withOvr o).imgValid = s.imgValid := rfl
@[simp] theorem withOvr_stg (s : State) (o : PerCount OvrEntry) : (s.withOvr o).stg = s.stg := rfl
@[simp] theorem withOvr_result (s : State) (o : PerCount OvrEntry) : (s.withOvr o).result = s.result := rfl
@[simp] theorem withOvr_sticky (s : State) (o : PerCount OvrEntry) : (s.withOvr o).sticky = s.sticky := rfl
@[simp] theorem withOvr_writes (s : State) (o : PerCount OvrEntry) : (s.withOvr o).writes = s.writes := rfl
@[simp] theorem withOvr_reports (s : State) (o : PerCount OvrEntry) : (s.withOvr o).reports = s.reports := rfl
@[simp] theorem withOvr_port (s : State) (o : PerCount OvrEntry) : (s.withOvr o).port = s.port := rfl
@[simp] theorem withOvr_params (s : State) (o : PerCount OvrEntry) : (s.withOvr o).params = s.params := rfl

/-! ### `withImages` -/

@[simp] theorem withImages_cfg (s : State) (m : Images) : (s.withImages m).cfg = s.cfg := rfl
@[simp] theorem withImages_mode (s : State) (m : Images) : (s.withImages m).mode = s.mode := rfl
@[simp] theorem withImages_plan (s : State) (m : Images) : (s.withImages m).plan = s.plan := rfl
@[simp] theorem withImages_ovr (s : State) (m : Images) : (s.withImages m).ovr = s.ovr := rfl
@[simp] theorem withImages_img (s : State) (m : Images) : (s.withImages m).img = m := rfl
@[simp] theorem withImages_imgValid (s : State) (m : Images) : (s.withImages m).imgValid = true := rfl
@[simp] theorem withImages_stg (s : State) (m : Images) : (s.withImages m).stg = s.stg := rfl
@[simp] theorem withImages_result (s : State) (m : Images) : (s.withImages m).result = s.result := rfl
@[simp] theorem withImages_sticky (s : State) (m : Images) : (s.withImages m).sticky = s.sticky := rfl
@[simp] theorem withImages_writes (s : State) (m : Images) : (s.withImages m).writes = s.writes := rfl
@[simp] theorem withImages_reports (s : State) (m : Images) : (s.withImages m).reports = s.reports := rfl
@[simp] theorem withImages_port (s : State) (m : Images) : (s.withImages m).port = s.port := rfl
@[simp] theorem withImages_params (s : State) (m : Images) : (s.withImages m).params = s.params := rfl

/-! ### `withStg` -/

@[simp] theorem withStg_cfg (s : State) (w : Word) : (s.withStg w).cfg = s.cfg := rfl
@[simp] theorem withStg_mode (s : State) (w : Word) : (s.withStg w).mode = s.mode := rfl
@[simp] theorem withStg_plan (s : State) (w : Word) : (s.withStg w).plan = s.plan := rfl
@[simp] theorem withStg_ovr (s : State) (w : Word) : (s.withStg w).ovr = s.ovr := rfl
@[simp] theorem withStg_img (s : State) (w : Word) : (s.withStg w).img = s.img := rfl
@[simp] theorem withStg_imgValid (s : State) (w : Word) : (s.withStg w).imgValid = s.imgValid := rfl
@[simp] theorem withStg_stg (s : State) (w : Word) : (s.withStg w).stg = w := rfl
@[simp] theorem withStg_result (s : State) (w : Word) : (s.withStg w).result = s.result := rfl
@[simp] theorem withStg_sticky (s : State) (w : Word) : (s.withStg w).sticky = s.sticky := rfl
@[simp] theorem withStg_writes (s : State) (w : Word) : (s.withStg w).writes = s.writes := rfl
@[simp] theorem withStg_reports (s : State) (w : Word) : (s.withStg w).reports = s.reports := rfl
@[simp] theorem withStg_port (s : State) (w : Word) : (s.withStg w).port = s.port := rfl
@[simp] theorem withStg_params (s : State) (w : Word) : (s.withStg w).params = s.params := rfl

/-! ### `withResult` -/

@[simp] theorem withResult_cfg (s : State) (w : Word) : (s.withResult w).cfg = s.cfg := rfl
@[simp] theorem withResult_mode (s : State) (w : Word) : (s.withResult w).mode = s.mode := rfl
@[simp] theorem withResult_plan (s : State) (w : Word) : (s.withResult w).plan = s.plan := rfl
@[simp] theorem withResult_ovr (s : State) (w : Word) : (s.withResult w).ovr = s.ovr := rfl
@[simp] theorem withResult_img (s : State) (w : Word) : (s.withResult w).img = s.img := rfl
@[simp] theorem withResult_imgValid (s : State) (w : Word) : (s.withResult w).imgValid = s.imgValid := rfl
@[simp] theorem withResult_stg (s : State) (w : Word) : (s.withResult w).stg = s.stg := rfl
@[simp] theorem withResult_result (s : State) (w : Word) : (s.withResult w).result = w := rfl
@[simp] theorem withResult_sticky (s : State) (w : Word) : (s.withResult w).sticky = s.sticky := rfl
@[simp] theorem withResult_writes (s : State) (w : Word) : (s.withResult w).writes = s.writes := rfl
@[simp] theorem withResult_reports (s : State) (w : Word) : (s.withResult w).reports = s.reports := rfl
@[simp] theorem withResult_port (s : State) (w : Word) : (s.withResult w).port = s.port := rfl
@[simp] theorem withResult_params (s : State) (w : Word) : (s.withResult w).params = s.params := rfl

/-! ### `withSticky` -/

@[simp] theorem withSticky_cfg (s : State) (b : Byte) : (s.withSticky b).cfg = s.cfg := rfl
@[simp] theorem withSticky_mode (s : State) (b : Byte) : (s.withSticky b).mode = s.mode := rfl
@[simp] theorem withSticky_plan (s : State) (b : Byte) : (s.withSticky b).plan = s.plan := rfl
@[simp] theorem withSticky_ovr (s : State) (b : Byte) : (s.withSticky b).ovr = s.ovr := rfl
@[simp] theorem withSticky_img (s : State) (b : Byte) : (s.withSticky b).img = s.img := rfl
@[simp] theorem withSticky_imgValid (s : State) (b : Byte) : (s.withSticky b).imgValid = s.imgValid := rfl
@[simp] theorem withSticky_stg (s : State) (b : Byte) : (s.withSticky b).stg = s.stg := rfl
@[simp] theorem withSticky_result (s : State) (b : Byte) : (s.withSticky b).result = s.result := rfl
@[simp] theorem withSticky_sticky (s : State) (b : Byte) : (s.withSticky b).sticky = b := rfl
@[simp] theorem withSticky_writes (s : State) (b : Byte) : (s.withSticky b).writes = s.writes := rfl
@[simp] theorem withSticky_reports (s : State) (b : Byte) : (s.withSticky b).reports = s.reports := rfl
@[simp] theorem withSticky_port (s : State) (b : Byte) : (s.withSticky b).port = s.port := rfl
@[simp] theorem withSticky_params (s : State) (b : Byte) : (s.withSticky b).params = s.params := rfl

/-! ### `pushWrite` -/

@[simp] theorem pushWrite_cfg (s : State) (w : MmioWrite) : (s.pushWrite w).cfg = s.cfg := rfl
@[simp] theorem pushWrite_mode (s : State) (w : MmioWrite) : (s.pushWrite w).mode = s.mode := rfl
@[simp] theorem pushWrite_plan (s : State) (w : MmioWrite) : (s.pushWrite w).plan = s.plan := rfl
@[simp] theorem pushWrite_ovr (s : State) (w : MmioWrite) : (s.pushWrite w).ovr = s.ovr := rfl
@[simp] theorem pushWrite_img (s : State) (w : MmioWrite) : (s.pushWrite w).img = s.img := rfl
@[simp] theorem pushWrite_imgValid (s : State) (w : MmioWrite) : (s.pushWrite w).imgValid = s.imgValid := rfl
@[simp] theorem pushWrite_stg (s : State) (w : MmioWrite) : (s.pushWrite w).stg = s.stg := rfl
@[simp] theorem pushWrite_result (s : State) (w : MmioWrite) : (s.pushWrite w).result = s.result := rfl
@[simp] theorem pushWrite_sticky (s : State) (w : MmioWrite) : (s.pushWrite w).sticky = s.sticky := rfl
@[simp] theorem pushWrite_writes (s : State) (w : MmioWrite) : (s.pushWrite w).writes = s.writes ++ [w] := rfl
@[simp] theorem pushWrite_reports (s : State) (w : MmioWrite) : (s.pushWrite w).reports = s.reports := rfl
@[simp] theorem pushWrite_port (s : State) (w : MmioWrite) : (s.pushWrite w).port = s.port := rfl
@[simp] theorem pushWrite_params (s : State) (w : MmioWrite) : (s.pushWrite w).params = s.params := rfl

/-! ### `pushReport` -/

@[simp] theorem pushReport_cfg (s : State) (r : Report) : (s.pushReport r).cfg = s.cfg := rfl
@[simp] theorem pushReport_mode (s : State) (r : Report) : (s.pushReport r).mode = s.mode := rfl
@[simp] theorem pushReport_plan (s : State) (r : Report) : (s.pushReport r).plan = s.plan := rfl
@[simp] theorem pushReport_ovr (s : State) (r : Report) : (s.pushReport r).ovr = s.ovr := rfl
@[simp] theorem pushReport_img (s : State) (r : Report) : (s.pushReport r).img = s.img := rfl
@[simp] theorem pushReport_imgValid (s : State) (r : Report) : (s.pushReport r).imgValid = s.imgValid := rfl
@[simp] theorem pushReport_stg (s : State) (r : Report) : (s.pushReport r).stg = s.stg := rfl
@[simp] theorem pushReport_result (s : State) (r : Report) : (s.pushReport r).result = s.result := rfl
@[simp] theorem pushReport_sticky (s : State) (r : Report) : (s.pushReport r).sticky = s.sticky := rfl
@[simp] theorem pushReport_writes (s : State) (r : Report) : (s.pushReport r).writes = s.writes := rfl
@[simp] theorem pushReport_reports (s : State) (r : Report) : (s.pushReport r).reports = s.reports ++ [r] := rfl
@[simp] theorem pushReport_port (s : State) (r : Report) : (s.pushReport r).port = s.port := rfl
@[simp] theorem pushReport_params (s : State) (r : Report) : (s.pushReport r).params = s.params := rfl

/-! ### `withPort` -/

@[simp] theorem withPort_cfg (s : State) (p : List PortEvent) : (s.withPort p).cfg = s.cfg := rfl
@[simp] theorem withPort_mode (s : State) (p : List PortEvent) : (s.withPort p).mode = s.mode := rfl
@[simp] theorem withPort_plan (s : State) (p : List PortEvent) : (s.withPort p).plan = s.plan := rfl
@[simp] theorem withPort_ovr (s : State) (p : List PortEvent) : (s.withPort p).ovr = s.ovr := rfl
@[simp] theorem withPort_img (s : State) (p : List PortEvent) : (s.withPort p).img = s.img := rfl
@[simp] theorem withPort_imgValid (s : State) (p : List PortEvent) : (s.withPort p).imgValid = s.imgValid := rfl
@[simp] theorem withPort_stg (s : State) (p : List PortEvent) : (s.withPort p).stg = s.stg := rfl
@[simp] theorem withPort_result (s : State) (p : List PortEvent) : (s.withPort p).result = s.result := rfl
@[simp] theorem withPort_sticky (s : State) (p : List PortEvent) : (s.withPort p).sticky = s.sticky := rfl
@[simp] theorem withPort_writes (s : State) (p : List PortEvent) : (s.withPort p).writes = s.writes := rfl
@[simp] theorem withPort_reports (s : State) (p : List PortEvent) : (s.withPort p).reports = s.reports := rfl
@[simp] theorem withPort_port (s : State) (p : List PortEvent) : (s.withPort p).port = p := rfl
@[simp] theorem withPort_params (s : State) (p : List PortEvent) : (s.withPort p).params = s.params := rfl

end Sys2Proof.Machine.State
end

