-- ==== Sys2Proof/Laws/Ops.lean ====
section
/-! SUPPORT. What each shared operation can do, said once: the facts of an admitted configuration, the arithmetic, the
error, the MMIO write, the resolution and the acceptance of a port event. -/

namespace Sys2Proof

/-! ### An admitted configuration (R8) -/

theorem AdmittedCfg.ddrMax_mod (c : AdmittedCfg) : c.params.ddrMax % 12 = 0 := by
  have h := c.ok; simp [Cfg.admitted, OpenParams.admitted] at h; omega

theorem AdmittedCfg.ddrMax_bounds (c : AdmittedCfg) : 12 ≤ c.params.ddrMax ∧ c.params.ddrMax ≤ 4000 := by
  have h := c.ok; simp [Cfg.admitted, OpenParams.admitted] at h; omega

theorem AdmittedCfg.refMhz_bounds (c : AdmittedCfg) : 1 ≤ c.params.refMhz ∧ c.params.refMhz ≤ 65535 := by
  have h := c.ok; simp [Cfg.admitted, OpenParams.admitted] at h; omega

theorem AdmittedCfg.nDir_eq (c : AdmittedCfg) : c.params.nDir = 1 := by
  have h := c.ok; simp [Cfg.admitted] at h; exact h.1.2

theorem AdmittedCfg.offset_aligned (c : AdmittedCfg) (r : TimingReg) : (Machine.regOffset c.params r).toNat % 4 = 0 := by
  have h := c.ok; simp [Cfg.admitted, OpenParams.admitted] at h; cases r <;> simp [Machine.regOffset] <;> omega

theorem AdmittedCfg.offsets_nodup (c : AdmittedCfg) : (Machine.writeOrder.map (Machine.regOffset c.params)).Nodup := by
  have h := c.ok; simp only [Cfg.admitted, OpenParams.admitted, Bool.and_eq_true, decide_eq_true_eq] at h; exact h.1.1.2

end Sys2Proof

namespace Sys2Proof.Machine

/-! ### Arithmetic and storage -/

theorem store32_of_lt {v : Nat} (h : v < 2 ^ 32) : (store32 v).toNat = v := by
  simp only [store32, if_pos h, BitVec.toNat_ofNat]; exact Nat.mod_eq_of_lt h

theorem clamp0_eq_toNat (x : Int) : clamp0 x = x.toNat := by
  simp only [clamp0]; split <;> omega

/-- `ceil_div` is the least `q` with `a <= q * b`. -/
theorem ceilDiv_le_iff {a b q : Nat} (hb : 0 < b) : ceilDiv a b ≤ q ↔ a ≤ q * b := by
  rw [ceilDiv, Nat.div_le_iff_le_mul_add_pred hb, Nat.mul_comm b q]; omega

/-! ### Errors, the report, the MMIO write -/

/-- Raising an error sets its bit and leaves every other field. -/
theorem raiseErr_spec (e : ErrBit) (s : State) : raiseErr e s = { s with sticky := s.sticky ||| e.mask } := rfl

theorem executeIllegal_spec (s : State) : executeIllegal s = { s with sticky := s.sticky ||| 2#8 } := rfl

theorem reportCfgErr_spec (raw rounded m : Nat) (s : State) :
    reportCfgErr raw rounded m s = { s with reports := s.reports ++ [⟨raw, rounded, m⟩] } := rfl

theorem mmioWrite_spec (off : Half) (v : Word) (s : State) :
    mmioWrite off v s = { s with writes := s.writes ++ [⟨off, v⟩] } := rfl

/-! ### Resolution -/

/-- The rounded frequency is the least multiple of 12 not below the raw one. -/
theorem roundedDdr_bounds (raw : Nat) :
    raw ≤ roundedDdr raw ∧ roundedDdr raw < raw + 12 ∧ roundedDdr raw % 12 = 0 := by
  simp only [roundedDdr, ceilDiv, ddrStep]; omega

/-- A frequency resolves to 0 exactly when it is 0. -/
theorem resolvedDdr_eq_zero (c : AdmittedCfg) (raw : Nat) : resolvedDdr c.params raw = 0 ↔ raw = 0 := by
  have h1 := roundedDdr_bounds raw
  have h2 := c.ddrMax_bounds
  simp only [resolvedDdr, clamps, decide_eq_true_eq]
  split <;> omega

/-- What recording a clamp can do. -/
theorem recordClamp_cases (raw : Nat) (s : State) :
    (clamps s.params raw = false ∧ recordClamp raw s = s) ∨
    (clamps s.params raw = true ∧ recordClamp raw s =
      { s with sticky := s.sticky ||| 1#8, reports := s.reports ++ [⟨raw, roundedDdr raw, s.params.ddrMax⟩] }) := by
  cases h : clamps s.params raw
  · exact .inl ⟨rfl, by simp [recordClamp, h]⟩
  · exact .inr ⟨rfl, by simp only [recordClamp, h, if_true]; rfl⟩

/-- Everything `Resolve` can do: reject frequency 0, or commit, with or without a clamp. -/
theorem resolve_cases (pclk raw : Nat) (s : State) :
    (raw = 0 ∧ resolve pclk raw s = { s with sticky := s.sticky ||| 8#8 }) ∨
    (raw ≠ 0 ∧ resolve pclk raw s =
      (recordClamp raw s).withPlan
        (planOf pclk raw (resolvedDdr s.params raw) (timing s.params (resolvedDdr s.params raw) s.ovr))) := by
  by_cases h : raw = 0
  · exact .inl ⟨h, by simp only [resolve, State.params, (resolvedDdr_eq_zero s.cfg raw).2 h, if_true]; rfl⟩
  · have h' : resolvedDdr s.params raw ≠ 0 := fun e => h ((resolvedDdr_eq_zero s.cfg raw).1 e)
    exact .inr ⟨h, by simp only [resolve, if_neg h', commitPlan]⟩

/-! ### Packing -/

/-- What recording an overflow can do. -/
theorem recordOverflow_cases (s : State) :
    (anyOverflow s.plan.counts = false ∧ recordOverflow s = s) ∨
    (anyOverflow s.plan.counts = true ∧ recordOverflow s = { s with sticky := s.sticky ||| 64#8 }) := by
  cases h : anyOverflow s.plan.counts
  · exact .inl ⟨rfl, by simp [recordOverflow, h]⟩
  · exact .inr ⟨rfl, by simp only [recordOverflow, h, if_true]; rfl⟩

/-- `fld` always fits a byte. -/
theorem fld_le (p : FieldPolicy) (v : Nat) : fld p v ≤ 255 := by
  cases p <;> simp only [fld] <;> omega

/-- WRITE's four writes change `WRITES` only. -/
theorem writeImages_spec (s : State) :
    writeImages s = { s with writes := s.writes ++
      [⟨s.params.offDphyParam, s.img.dphyParam⟩, ⟨s.params.offClkLaneTiming, s.img.clkLaneTiming⟩,
        ⟨s.params.offLpByteclk, s.img.lpByteclk⟩, ⟨s.params.offClkLaneSwt, s.img.clkLaneSwt⟩] } := by
  simp [writeImages, writeOrder, mmioWrite, State.pushWrite, regOffset, Images.get]

/-! ### Acceptance of a port event -/

/-- What accepting an event can do: wait, or take the oldest event off the port. -/
theorem accept_cases (s : State) :
    (s.port = [] ∧ accept s = none) ∨
    (∃ e rest, s.port = e :: rest ∧ accept s = some (e, { s with port := rest })) := by
  cases h : s.port with
  | nil => exact .inl ⟨rfl, by simp [accept, h]⟩
  | cons e rest => exact .inr ⟨e, rest, rfl, by simp [accept, h, State.withPort]⟩

end Sys2Proof.Machine
end

