-- ==== Sys2Proof/Laws/PerInstr.lean ====
section
/-! SUPPORT. Statements made per instruction: the three fields of an encoded command read back as they were put in. -/

namespace Sys2Proof

theorem opField_packFields (op sel : Byte) (imm : Half) : opField (packFields op sel imm) = op := by
  apply BitVec.eq_of_getLsbD_eq
  intro i hi
  simp only [opField, packFields, BitVec.getLsbD_extractLsb', BitVec.getLsbD_append, hi]
  have h1 : ¬ (24 + i < 16) := by omega
  have h2 : ¬ (24 + i - 16 < 8) := by omega
  simp [h1, h2, show 24 + i - 16 - 8 = i by omega]

theorem selField_packFields (op sel : Byte) (imm : Half) : selField (packFields op sel imm) = sel := by
  apply BitVec.eq_of_getLsbD_eq
  intro i hi
  simp only [selField, packFields, BitVec.getLsbD_extractLsb', BitVec.getLsbD_append, hi]
  have h1 : ¬ (16 + i < 16) := by omega
  simp [h1, hi]

theorem immField_packFields (op sel : Byte) (imm : Half) : immField (packFields op sel imm) = imm := by
  apply BitVec.eq_of_getLsbD_eq
  intro i hi
  simp only [immField, packFields, BitVec.getLsbD_extractLsb', BitVec.getLsbD_append, hi]
  simp [hi]

namespace Laws.EncodeFields

/-- The encoding of `i` holds its operation code, selector and immediate in the fields of R90. -/
def Statement (i : Instr) : Prop :=
  opField (encode i) = i.opcode ∧ selField (encode i) = i.selBits ∧ immField (encode i) = i.immBits

theorem of_packFields (i : Instr) : Statement i :=
  ⟨opField_packFields _ _ _, selField_packFields _ _ _, immField_packFields _ _ _⟩

theorem nop : Statement .nop := of_packFields _
theorem setmode (div : Byte) (fmt : PixelFormat) (cls : VideoClass) (lanes : Nat) :
    Statement (.setmode div fmt cls lanes) := of_packFields _
theorem compute : Statement .compute := of_packFields _
theorem calcddr (raw : Nat) : Statement (.calcddr raw) := of_packFields _
theorem setovr (q : Count) (v : Byte) : Statement (.setovr q v) := of_packFields _
theorem clrovr (target : OvrTarget) : Statement (.clrovr target) := of_packFields _
theorem pack : Statement .pack := of_packFields _
theorem write : Statement .write := of_packFields _
theorem setfld (k : Nat) (v : Byte) : Statement (.setfld k v) := of_packFields _
theorem clrstg : Statement .clrstg := of_packFields _
theorem wrstg (off : Half) : Statement (.wrstg off) := of_packFields _
theorem rdres (sel : ResultSel) : Statement (.rdres sel) := of_packFields _
theorem rdstat : Statement .rdstat := of_packFields _
theorem clrstat (m : Byte) : Statement (.clrstat m) := of_packFields _

end Laws.EncodeFields

end Sys2Proof
end

