-- ==== Sys2Proof/Laws/Run.lean ====
section
/-! SUPPORT. Runs and command sequences, unfolded one step at a time. -/

namespace Sys2Proof.Machine

/-- A run of `n + 1` steps is a step and a run of `n`. -/
theorem run_succ_of_step {n : Nat} {s t : State} (h : step s = .next t) :
    Host.Core.run Sys2Proof.core (n + 1) s = Host.Core.run Sys2Proof.core n t := by
  have h' : Sys2Proof.core.step s = .next t := h
  simp only [Host.Core.run, h']

/-- A command sequence is its first command and the rest. -/
theorem execAll_cons {i : Instr} {is : List Instr} {s t : State} (h : exec i s = .next t) :
    execAll (i :: is) s = execAll is t := by
  simp only [execAll, h]

/-- A step that accepts a command word that decodes executes the command. -/
theorem step_of_decode {s : State} {w : Word} {rest : List PortEvent} {i : Instr}
    (hp : accept s = some (.command w, s.withPort rest)) (hd : decode w = .ok i) :
    step s = exec i (s.withPort rest) := by
  simp only [step, hp, hd]

end Sys2Proof.Machine
end

