-- ==== Sys2Proof/Tests/Slice0.lean ====
section
/-! SUPPORT. Tests. The expected values are the spec's: its worked encodings (30_encoding.md R105) and its test vectors
(95_test_vectors.md), under the test configuration TC. The witnesses at the end meet the hypotheses of the statements. -/

namespace Sys2Proof.Tests

open Sys2Proof.Machine

/-! ### Helpers -/

/-- The OPEN parameters of TC, with another `DDR_MAX` where asked (TC-HI takes 3996). -/
def tcOpen (ddrMax : Nat) : OpenParams where
  refMhz := 48
  ddrMax := ddrMax
  offDphyParam := 0x40#16
  offClkLaneTiming := 0x44#16
  offLpByteclk := 0x48#16
  offClkLaneSwt := 0x4C#16

/-- TC. -/
def tc : AdmittedCfg where
  params := Cfg.ofOpen (tcOpen 744)
  ok := by decide

/-- TC-HI under `FIELD_POLICY = SATURATE`. -/
def tcHiSaturate : AdmittedCfg where
  params := { Cfg.ofOpen (tcOpen 3996) with fieldPolicy := .saturate }
  ok := by decide

/-- The reset state under TC. -/
def s0 : State := { State.reset with cfg := tc }

/-- The state a command gives; `s` where it gives none. -/
def after (i : Instr) (s : State) : State :=
  match exec i s with
  | .next t => t
  | .fault _ => s
  | .refused _ => s

/-- Every command gives a next state, and `after` names it. -/
theorem exec_after (i : Instr) (s : State) : exec i s = .next (after i s) := by cases i <;> rfl

/-- The state after the next port event. -/
def afterStep (s : State) : State :=
  match step s with
  | .next t => t
  | .fault _ => s
  | .refused _ => s

/-- The eleven counts as numbers, in the order of the spec's vectors. -/
def countList (n : PerCount Nat) : List Nat := allCountNames.map n.get

/-- The eight intervals in the order of the spec's vectors. -/
def intervalList (n : PerInterval Nat) : List Nat :=
  [n.hsPrep, n.hsZero, n.hsTrail, n.hsExit, n.clkPrep, n.clkZero, n.clkTrail, n.clkExit]

/-- MODE of program P1: `SETMODE div=1, fmt=24, cls=nonburst, lanes=2`. -/
def sMode : State := after (.setmode 1#8 .bpp24 .nonBurst 2) s0

/-- A state with a committed plan at 72 MHz (CALCDDR 72). -/
def sPlan : State := after (.calcddr 72) s0

/-- A state with valid images of 72 MHz. -/
def sImg : State := after .pack sPlan

/-- A state with all eleven counts overridden by 5. -/
def sOvr : State := { s0 with ovr := allCounts ⟨true, 5#8⟩ }

/-! ### Well-formedness and admission: each check refuses an ill-formed term -/

theorem test_wf_refuses_lanes_3 : (Instr.setmode 0#8 .bpp16 .burst 3).wellFormed = false := by decide
theorem test_wf_refuses_lanes_0 : (Instr.setmode 0#8 .bpp16 .burst 0).wellFormed = false := by decide
theorem test_wf_refuses_raw_65536 : (Instr.calcddr 65536).wellFormed = false := by decide
theorem test_wf_refuses_field_4 : (Instr.setfld 4 0#8).wellFormed = false := by decide
theorem test_wf_admits_the_bounds :
    (Instr.calcddr 65535).wellFormed = true ∧ (Instr.setfld 3 0#8).wellFormed = true ∧
      (Instr.setmode 0#8 .bpp16 .burst 2).wellFormed = true := by decide
theorem test_cfg_admits_tc : (Cfg.ofOpen (tcOpen 744)).admitted = true := by decide
theorem test_cfg_refuses_max_not_multiple : (Cfg.ofOpen (tcOpen 745)).admitted = false := by decide
theorem test_cfg_refuses_max_low : (Cfg.ofOpen (tcOpen 0)).admitted = false := by decide
theorem test_cfg_refuses_max_high : (Cfg.ofOpen (tcOpen 4008)).admitted = false := by decide
theorem test_cfg_refuses_ref_0 : (Cfg.ofOpen { tcOpen 744 with refMhz := 0 }).admitted = false := by decide
theorem test_cfg_refuses_ref_65536 : (Cfg.ofOpen { tcOpen 744 with refMhz := 65536 }).admitted = false := by decide
theorem test_cfg_refuses_n_dir_2 : { Cfg.ofOpen (tcOpen 744) with nDir := 2 }.admitted = false := by decide
theorem test_cfg_refuses_equal_offsets :
    (Cfg.ofOpen { tcOpen 744 with offClkLaneSwt := 0x40#16 }).admitted = false := by decide
theorem test_cfg_refuses_misaligned_offsets :
    (Cfg.ofOpen { tcOpen 744 with offDphyParam := 0x42#16 }).admitted = false ∧
    (Cfg.ofOpen { tcOpen 744 with offClkLaneTiming := 0x41#16 }).admitted = false ∧
    (Cfg.ofOpen { tcOpen 744 with offLpByteclk := 0x4A#16 }).admitted = false ∧
    (Cfg.ofOpen { tcOpen 744 with offClkLaneSwt := 0x4F#16 }).admitted = false := by decide
theorem test_cfg_refuses_bias_0 :
    { Cfg.ofOpen (tcOpen 744) with bias := { defaultBias with hsTrail := 0 } }.admitted = false := by decide

/-! ### Decoding: words written out from R92 to R98 and table V-DEC -/

/-- One word of every command, OP, SEL and IMM written out; those of R105 and V-DEC where the spec has one. -/
theorem test_decode_every_command :
    decode 0x00000000#32 = .ok .nop ∧
    decode 0x01000A01#32 = .ok (.setmode 1#8 .bpp24 .nonBurst 2) ∧
    decode 0x02000000#32 = .ok .compute ∧
    decode 0x0300FFFF#32 = .ok (.calcddr 65535) ∧
    decode 0x04040005#32 = .ok (.setovr .hsZero 5#8) ∧
    decode 0x050D0000#32 = .ok (.clrovr (.one .clkLp2Hs)) ∧
    decode 0x05FF0000#32 = .ok (.clrovr .all) ∧
    decode 0x06000000#32 = .ok .pack ∧
    decode 0x07000000#32 = .ok .write ∧
    decode 0x0802007F#32 = .ok (.setfld 2 0x7F#8) ∧
    decode 0x09000000#32 = .ok .clrstg ∧
    decode 0x0A000012#32 = .ok (.wrstg 0x12#16) ∧
    decode 0x0B1C0000#32 = .ok (.rdres .ovrMask) ∧
    decode 0x0C000000#32 = .ok .rdstat ∧
    decode 0x0D0000FF#32 = .ok (.clrstat 0xFF#8) := by decide

/-- The same bits as binary digits: `00000001 00000000 0000 L=1 cls=1 fmt=00 div=00000011` (R95, R105). -/
theorem test_decode_setmode_bits :
    decode 0b00000001000000000000110000000011#32 = .ok (.setmode 3#8 .bpp16 .burst 2) := by decide

/-- The illegal words of V-DEC. -/
theorem test_decode_illegal :
    [0x00000001#32, 0x01000300#32, 0x01001000#32, 0x01010A01#32, 0x03010090#32, 0x03FFFFFF#32, 0x04020005#32,
      0x040E0005#32, 0x04040105#32].all (fun w => (decode w).toOption.isNone) = true ∧
    [0x05FE0000#32, 0x05040001#32, 0x0804007F#32, 0x0A010010#32, 0x0B1D0000#32, 0x0D000100#32, 0x0E000000#32,
      0xFFFFFFFF#32].all (fun w => (decode w).toOption.isNone) = true := by decide

theorem test_decodeTableWord : decodeTableWord 32 0x03000090 = some (.calcddr 144) ∧
    decodeTableWord 32 0x0E000000 = none := by decide

/-- The assembler form of R105's first row (R103). -/
theorem test_assembly : assembly (.setmode 1#8 .bpp24 .nonBurst 2) = "SETMODE div=1, fmt=24, cls=nonburst, lanes=2" := by
  decide

/-! ### Arithmetic: V-PRIM -/

theorem test_ceilDiv : ceilDiv 10 3 = 4 ∧ ceilDiv 12 3 = 4 ∧ ceilDiv 0 5 = 0 ∧ ceilDiv 13 12 = 2 ∧
    ceilDiv 5000 72 = 70 ∧ ceilDiv 4000 4000 = 1 := by decide
theorem test_roundDiv : roundDiv 88 55 = 2 ∧ roundDiv 60 55 = 1 ∧ roundDiv 60 333 = 0 ∧ roundDiv 60 120 = 1 ∧
    roundDiv 59 118 = 1 := by decide
theorem test_clamp0 : clamp0 (-1) = 0 ∧ clamp0 5 = 5 := by decide

/-! ### The timing calculator: V-TIM -/

/-- V-TIM-1, `INT_PERIOD`: clamps at 12, R175 at 72, a high frequency at 744. -/
theorem test_counts_int_period :
    ∀ p ∈ [(12, [0, 0, 1, 0, 0, 0, 0, 0, 1, 3, 6]), (72, [1, 1, 2, 2, 0, 3, 1, 2, 2, 7, 13]),
        (144, [2, 3, 3, 4, 1, 8, 3, 4, 3, 12, 23]), (480, [7, 13, 11, 16, 7, 32, 11, 16, 10, 39, 81]),
        (744, [12, 21, 18, 25, 11, 52, 17, 25, 16, 60, 129])],
      countList (timing tc.params p.1 s0.ovr).counts = p.2 := by decide

/-- V-TIM-2, `EXACT`. -/
theorem test_counts_exact :
    ∀ p ∈ [(72, [1, 1, 2, 2, 0, 3, 1, 2, 2, 7, 13]), (300, [4, 7, 7, 9, 4, 19, 6, 9, 7, 24, 53]),
        (744, [11, 20, 17, 24, 10, 49, 16, 24, 16, 58, 125])],
      countList (timing { tc.params with periodMode := .exact } p.1 s0.ovr).counts = p.2 := by decide

/-- V-TIM-1: the eight intervals at 12 and 72. -/
theorem test_intervals :
    ∀ p ∈ [(12, [227, 360, 364, 130, 60, 270, 90, 130]), (72, [88, 152, 118, 130, 60, 270, 90, 130])],
      intervalList (timing tc.params p.1 s0.ovr).intervals = p.2 := by decide

/-- V-OVR, third row: overrides of `CLK_ZERO` and `CLK_HS2LP`, the other switch counter from the overridden count. -/
theorem test_override_counts :
    countList (timing tc.params 72 ((s0.ovr.set .clkZero ⟨true, 0#8⟩).set .clkHs2Lp ⟨true, 255#8⟩)).counts =
      [1, 1, 2, 2, 0, 0, 1, 2, 2, 255, 10] := by decide

/-! ### One step each -/

theorem test_nop : after .nop sImg = sImg := by decide

theorem test_setmode : sMode.mode = { valid := true, pclkDiv := 1#8, fmt := .bpp24, cls := .nonBurst, lanes := 2 } := by
  decide

/-- Program P1, step 2. -/
theorem test_compute : (after .compute sMode).plan.pclk = 24#32 ∧ (after .compute sMode).plan.rawDdr = 144#32 ∧
    (after .compute sMode).plan.ddr = 144#32 ∧ (after .compute sMode).plan.bp = 27#32 := by decide

/-- V-CFG-4: a clamping COMPUTE. -/
theorem test_compute_clamp :
    (after .compute (after (.setmode 0#8 .bpp24 .burst 1) s0)).reports = [⟨1152, 1152, 744⟩] ∧
    (after .compute (after (.setmode 0#8 .bpp24 .burst 1) s0)).plan.ddr = 744#32 ∧
    (after .compute (after (.setmode 0#8 .bpp24 .burst 1) s0)).sticky = 0x01#8 := by decide

/-- V-CFG-3: 73 rounds to 84; 745 clamps. -/
theorem test_calcddr : (after (.calcddr 73) s0).plan.ddr = 84#32 ∧ (after (.calcddr 73) s0).reports = [] ∧
    (after (.calcddr 745) s0).plan.ddr = 744#32 ∧ (after (.calcddr 745) s0).reports = [⟨745, 756, 744⟩] := by decide

theorem test_calcddr_zero : after (.calcddr 0) sImg = { sImg with sticky := 0x08#8 } := by decide

theorem test_setovr : (after (.setovr .lpDiv 3#8) s0).ovr.lpDiv = ⟨true, 3#8⟩ := by decide

theorem test_clrovr : (after (.clrovr (.one .lpDiv)) sOvr).ovr.lpDiv = ⟨false, 0#8⟩ ∧
    (after (.clrovr (.one .lpDiv)) sOvr).ovr.clkExit = ⟨true, 5#8⟩ ∧
    (after (.clrovr .all) sOvr).ovr = s0.ovr := by decide

/-- V-PACK: the images of 72 MHz. -/
theorem test_pack : sImg.img = ⟨0x02020101#32, 0x02010300#32, 0x00000002#32, 0x00000D07#32⟩ ∧ sImg.sticky = 0#8 := by
  decide

/-- V-PACK, TC-HI at 2004 under `SATURATE`: counts above 255, `FIELD_OVF`. -/
theorem test_pack_saturate :
    (after .pack (after (.calcddr 2004) { s0 with cfg := tcHiSaturate })).img =
      ⟨0x815A6E3C#32, 0x8159FF3B#32, 0x0000002A#32, 0x0000FFFF#32⟩ ∧
    (after .pack (after (.calcddr 2004) { s0 with cfg := tcHiSaturate })).sticky = 0x40#8 := by decide

/-- V-PACK: the four writes in order. -/
theorem test_write : (after .write sImg).writes =
    [⟨0x40#16, 0x02020101#32⟩, ⟨0x44#16, 0x02010300#32⟩, ⟨0x48#16, 0x00000002#32⟩, ⟨0x4C#16, 0x00000D07#32⟩] := by
  decide

theorem test_write_no_image : after .write sPlan = { sPlan with sticky := 0x20#8 } := by decide

theorem test_setfld : (after (.setfld 2 0x01#8) { s0 with stg := 0x007F0000#32 }).stg = 0x00010000#32 ∧
    (after (.setfld 0 0xAA#8) { s0 with stg := 0x007F0000#32 }).stg = 0x007F00AA#32 := by decide

theorem test_clrstg : (after .clrstg { s0 with stg := 0x007F0000#32 }).stg = 0#32 := by decide

theorem test_wrstg : (after (.wrstg 0xFFFC#16) { s0 with stg := 0x11223344#32 }).writes = [⟨0xFFFC#16, 0x11223344#32⟩] ∧
    Memory.read (after (.wrstg 0xFFFC#16) { s0 with stg := 0x11223344#32 }).window 0xFFFD = some 0x33#8 := by decide

theorem test_wrstg_misaligned : after (.wrstg 0x12#16) sImg = { sImg with sticky := 0x80#8 } := by decide

/-- R264's example: enables of `HS_ZERO` and `LP_DIV`. -/
theorem test_rdres_ovrMask :
    (after (.rdres .ovrMask) (after (.setovr .hsZero 5#8) (after (.setovr .lpDiv 3#8) s0))).result = 0x00000102#32 := by
  decide

/-- V-STAT: `T_HS_ZERO` and `CLK_LP2HS` after CALCDDR 144. -/
theorem test_rdres : (after (.rdres (.interval .hsZero)) (after (.calcddr 144) s0)).result = 131#32 ∧
    (after (.rdres (.count .clkLp2Hs)) (after (.calcddr 144) s0)).result = 23#32 := by decide

theorem test_rdstat : (after .rdstat sImg).result = 0x00000600#32 ∧
    (after .rdstat { s0 with sticky := 0xBE#8 }).result = 0x000000BE#32 := by decide

theorem test_clrstat : (after (.clrstat 0x01#8) { s0 with sticky := 0x03#8 }).sticky = 0x02#8 ∧
    (after (.clrstat 0x00#8) { s0 with sticky := 0x03#8 }).sticky = 0x03#8 := by decide

theorem test_step_fetches : afterStep (State.reset.withFetchWord 32 0x08010080) = { State.reset with stg := 0x00008000#32 } := by
  rfl

theorem test_step_illegal : afterStep (s0.withFetchWord 32 0x0E000000) = { s0 with sticky := 0x02#8 } := by decide

/-- V-RST: the histories and the configuration stay. -/
theorem test_reset_event : afterStep { after .write sImg with port := [.reset] } =
    { s0 with writes := (after .write sImg).writes } := by decide

/-! ### The hypotheses of the statements are met -/

/-- A state with the invariant, a committed plan, valid images, writes and a report in it, and a CALCDDR on the port. -/
def sInv : State := { after .write (after .pack (after (.calcddr 1000) s0)) with port := [.command 0x03000049#32] }

theorem witness_DecodeOfEncode : (Instr.setmode 255#8 .bpp24 .burst 2).wellFormed = true ∧
    (Instr.calcddr 65535).wellFormed = true ∧ (Instr.setfld 3 255#8).wellFormed = true := by decide
theorem witness_EncodeOfDecode : decode 0x0B1C0000#32 = .ok (.rdres .ovrMask) := by decide
theorem witness_IllegalOpcodesRejected : 0x0E ≤ opNat 0x0E000000#32 ∧ 0x0E ≤ opNat 0xFFFFFFFF#32 := by decide
theorem witness_StepRunsDecodedCommand : { s0 with port := [.command 0x03000090#32] }.port =
    .command 0x03000090#32 :: [] ∧ decode 0x03000090#32 = .ok (.calcddr 144) := by decide
theorem witness_IllegalWordSetsIllegalOnly : { s0 with port := [.command 0x0E000000#32] }.port =
    .command 0x0E000000#32 :: [] ∧ ¬ RequireHolds 0x0E000000#32 := ⟨by decide, by unfold RequireHolds; decide⟩
theorem witness_ResetEventResetsTheBlock : { sImg with port := [.reset] }.port = .reset :: [] := by decide
theorem witness_IdlePortWaits : s0.port = [] := by decide
theorem witness_SetmodeLatchesMode : (2#2 ≠ 3#2) ∧ (opNat 0x01001000#32 = 0x01 ∧ immNat 0x01001000#32 / 2 ^ 12 ≠ 0) ∧
    (opNat 0x01000300#32 = 0x01 ∧ immNat 0x01000300#32 / 2 ^ 8 % 4 = 3) ∧
    (opNat 0x01010A01#32 = 0x01 ∧ selNat 0x01010A01#32 ≠ 0) := by decide
theorem witness_ComputeWithoutModeIsRejected : s0.mode.valid = false := by decide
/-- Divider 48 is the least above the reference of 48 MHz that gives 0 (V-CFG-1). -/
theorem witness_ZeroFrequencyIsRejected :
    (after (.setmode 48#8 .bpp24 .nonBurst 2) s0).mode.valid = true ∧
    rawDdr s0.params (after (.setmode 48#8 .bpp24 .nonBurst 2) s0).mode = 0 ∧
    s0.params.refMhz < (after (.setmode 48#8 .bpp24 .nonBurst 2) s0).mode.pclkDiv.toNat + 1 := by decide
/-- Both clauses: 144 is not clamped, 1152 is. -/
theorem witness_ComputeCommitsThePlan : sMode.mode.valid = true ∧ rawDdr sMode.params sMode.mode = 144 ∧
    (144 + 11) / 12 * 12 ≤ sMode.params.ddrMax ∧
    (after (.setmode 0#8 .bpp24 .burst 1) s0).mode.valid = true ∧
    rawDdr s0.params (after (.setmode 0#8 .bpp24 .burst 1) s0).mode = 1152 ∧
    s0.params.ddrMax < (1152 + 11) / 12 * 12 := by decide
/-- The clauses meet at 744, which is not clamped, and 745, which is. -/
theorem witness_CalcddrCommitsThePlan : (744 + 11) / 12 * 12 ≤ s0.params.ddrMax ∧
    s0.params.ddrMax < (745 + 11) / 12 * 12 ∧ opNat 0x03010090#32 = 0x03 ∧ selNat 0x03010090#32 ≠ 0 := by decide
theorem witness_RoundingIsLeastMultiple : 84 % 12 = 0 ∧ 73 ≤ 84 := by decide
theorem witness_CommittedFrequencyIsLegal : (744 : Nat) ≠ 0 ∧ (744 + 11) / 12 * 12 ≤ s0.params.ddrMax ∧
    s0.params.ddrMax < (745 + 11) / 12 * 12 ∧ sMode.mode.valid = true ∧ rawDdr sMode.params sMode.mode = 144 := by decide
theorem witness_StoredValuesFitByDefault : tc.params = Cfg.ofOpen tc.params.toOpenParams ∧ 65535 ≤ 65535 ∧
    1572840 ≤ 1572840 ∧ 1572840 ≠ 0 := by decide
theorem witness_HsPrepInterval : 1 ≤ 1 ∧ 2000 ≤ 2000 := by decide
theorem witness_HsZeroIntervalNeverClamps : 1 ≤ 4000 := by decide
theorem witness_HsTrailInterval : 1 ≤ 33 ∧ 33 ≤ 33 ∧ ¬ 34 ≤ 33 := by decide
/-- Both clauses of the clock-lane zero interval: the default bound 330, and a bound below prepare. -/
theorem witness_ParameterisedIntervals :
    (timing tc.params 72 s0.ovr).intervals.clkPrep ≤ tc.params.clkPzBase + (tc.params.clkPzUi * 500 + 72 - 1) / 72 ∧
    ({ tc.params with clkPzBase := 59 } : Cfg).clkPzBase + (0 * 500 + 72 - 1) / 72 <
      (timing { tc.params with clkPzBase := 59 } 72 s0.ovr).intervals.clkPrep := by decide
/-- Both clauses: at 12 MHz the ticks of `CLK_PREP` do not exceed its bias, at 72 those of `HS_PREP` do. -/
theorem witness_IntervalCountFormula :
    (60 + 4000 / 12 / 2) / (4000 / 12) ≤ tc.params.bias.get .clkPrep ∧
    tc.params.bias.get .hsPrep < (88 + 4000 / 72 / 2) / (4000 / 72) := by decide
theorem witness_CalcddrCommitsTheSpecCounts : s0.params = { Cfg.ofOpen (tcOpen 744) with periodMode := .intPeriod } ∧
    1 ≤ 1 ∧ 65535 ≤ 65535 := by decide
theorem witness_PrepareCountClamps : tc.params = Cfg.ofOpen tc.params.toOpenParams ∧ 1 ≤ 33 ∧ 33 ≤ 4000 ∧
    1 ≤ 4000 ∧ 4000 ≤ 4000 := by decide
theorem witness_LpDivFormulaAndRange : s0.ovr.lpDiv.en = false ∧ 1 ≤ 48 ∧ 48 ≤ 4000 := by decide
theorem witness_SwitchCountersUseFinalCounts : sOvr.ovr.clkHs2Lp.en = true ∧ s0.ovr.clkHs2Lp.en = false ∧
    sOvr.ovr.clkLp2Hs.en = true ∧ s0.ovr.clkLp2Hs.en = false := by decide
theorem witness_SetovrEnablesOneEntry : ((0x0D#8, Count.clkLp2Hs) ∈ countSelectors) ∧
    (opNat 0x04020005#32 = 0x04 ∧ selNat 0x04020005#32 < 0x03) ∧
    (opNat 0x040E0005#32 = 0x04 ∧ 0x0D < selNat 0x040E0005#32) ∧
    (opNat 0x04040105#32 = 0x04 ∧ immNat 0x04040105#32 / 2 ^ 8 ≠ 0) := by decide
theorem witness_ClrovrDisablesEntries : ((0x03#8, Count.hsPrep) ∈ countSelectors) ∧
    (opNat 0x05FE0000#32 = 0x05 ∧ 0x0D < selNat 0x05FE0000#32 ∧ selNat 0x05FE0000#32 ≠ 0xFF) ∧
    (opNat 0x05040001#32 = 0x05 ∧ immNat 0x05040001#32 ≠ 0) ∧
    (opNat 0x05020000#32 = 0x05 ∧ selNat 0x05020000#32 < 0x03) := by decide
theorem witness_OverrideReplacesTheFinalCount : (sOvr.ovr.get .hsZero).en = true ∧
    exec (.calcddr 144) s0 = .next (after (.calcddr 144) s0) ∧
    exec (.calcddr 144) { s0 with ovr := sOvr.ovr } = .next (after (.calcddr 144) { s0 with ovr := sOvr.ovr }) :=
  ⟨by decide, exec_after _ _, exec_after _ _⟩
theorem witness_OvrUsedTellsOverrides : (sMode.mode.valid = true ∧ rawDdr sMode.params sMode.mode ≠ 0) ∧
    exec .compute sMode = .next (after .compute sMode) ∧ exec (.calcddr 144) sOvr = .next (after (.calcddr 144) sOvr) :=
  ⟨by decide, exec_after _ _, exec_after _ _⟩
theorem witness_OverridesWaitForTheNextCommit :
    exec (.setovr .lpDiv 3#8) sPlan = .next (after (.setovr .lpDiv 3#8) sPlan) ∧
    execAll [.pack, .write] sPlan = .next (after .write (after .pack sPlan)) ∧
    execAll [.pack, .write] (after (.setovr .lpDiv 3#8) sPlan) =
      .next (after .write (after .pack (after (.setovr .lpDiv 3#8) sPlan))) :=
  ⟨exec_after _ _, by rw [execAll_cons (exec_after _ _), execAll_cons (exec_after _ _)]; rfl,
    by rw [execAll_cons (exec_after _ _), execAll_cons (exec_after _ _)]; rfl⟩
theorem witness_OverriddenCountsNeverOverflow : (∀ q : Count, (sOvr.ovr.get q).en = true) ∧
    exec (.calcddr 72) sOvr = .next (after (.calcddr 72) sOvr) ∧
    exec .pack (after (.calcddr 72) sOvr) = .next (after .pack (after (.calcddr 72) sOvr)) :=
  ⟨fun q => by cases q <;> rfl, exec_after _ _, exec_after _ _⟩
theorem witness_PackBuildsTheImages : s0.plan.valid = false ∧ sPlan.plan.valid = true ∧
    (∀ q ∈ allCountNames, (sPlan.plan.counts.get q).toNat ≤ 255) ∧
    255 < ((after (.calcddr 2004) { s0 with cfg := tcHiSaturate }).plan.counts.get .clkLp2Hs).toNat := by decide
theorem witness_WriteSendsTheImagesInOrder : s0.imgValid = false ∧ sImg.imgValid = true := by decide
theorem witness_WriteDeliversEachRegister : sImg.imgValid = true ∧ exec .write sImg = .next (after .write sImg) :=
  ⟨by decide, exec_after _ _⟩
theorem witness_SetfldReplacesOneByte : (3#8).toNat ≤ 3 ∧ (opNat 0x0804007F#32 = 0x08 ∧ 3 < selNat 0x0804007F#32) ∧
    (opNat 0x08000100#32 = 0x08 ∧ immNat 0x08000100#32 / 2 ^ 8 ≠ 0) := by decide
theorem witness_ClrstgClearsTheStagingWord : opNat 0x09000001#32 = 0x09 ∧ 0x09000001#32 ≠ 0x09000000#32 := by decide
theorem witness_WrstgWritesTheStagingWord : (0xFFFC#16).toNat % 4 = 0 ∧ (0xFFFD#16).toNat % 4 ≠ 0 ∧
    opNat 0x0A010010#32 = 0x0A ∧ selNat 0x0A010010#32 ≠ 0 := by decide
theorem witness_WrstgDeliversFourBytes : exec (.wrstg 0xFFFC#16) s0 = .next (after (.wrstg 0xFFFC#16) s0) ∧
    exec (.wrstg 0x12#16) s0 = .next (after (.wrstg 0x12#16) s0) := ⟨exec_after _ _, exec_after _ _⟩
theorem witness_NopChangesNothing : opNat 0x00000001#32 = 0x00 ∧ 0x00000001#32 ≠ 0x00000000#32 := by decide
theorem witness_RdresReadsTheNamedField : (opNat 0x0B1D0000#32 = 0x0B ∧ 0x1C < selNat 0x0B1D0000#32) ∧
    (opNat 0x0B000001#32 = 0x0B ∧ immNat 0x0B000001#32 ≠ 0) := by decide
theorem witness_ClrstatClearsTheMaskBits : (opNat 0x0D000100#32 = 0x0D ∧ immNat 0x0D000100#32 / 2 ^ 8 ≠ 0) ∧
    (opNat 0x0D010000#32 = 0x0D ∧ selNat 0x0D010000#32 ≠ 0) := by decide
theorem witness_PackWriteRdstatReject : (opNat 0x06000001#32 = 0x06 ∧ 0x06000001#32 ≠ 0x06000000#32) ∧
    (opNat 0x07010000#32 = 0x07 ∧ 0x07010000#32 ≠ 0x07000000#32) ∧
    (opNat 0x0C000001#32 = 0x0C ∧ 0x0C000001#32 ≠ 0x0C000000#32) := by decide
theorem witness_OneErrorBitPerCommand : (∀ m : Byte, Instr.pack ≠ .clrstat m) ∧ exec .pack s0 = .next (after .pack s0) :=
  ⟨(fun m h => by cases h), exec_after _ _⟩
theorem witness_StickyBitsStayUntilCleared : exec .nop { s0 with sticky := 0x80#8 } =
      .next (after .nop { s0 with sticky := 0x80#8 }) ∧ (0x80#8).getLsbD 7 = true ∧
    Rejects 0x0E000000#32 := ⟨exec_after _ _, by decide, .opcode, by decide⟩
theorem witness_RejectedCommandHasNoOtherEffect : exec .write s0 = .next (after .write s0) ∧
    ErrBit.noImage.rejecting = true ∧ s0.sticky.getLsbD ErrBit.noImage.code = false ∧
    (after .write s0).sticky.getLsbD ErrBit.noImage.code = true := ⟨exec_after _ _, by decide, by decide, by decide⟩
theorem witness_StepKeepsTheInvariant : Inv sInv ∧ step sInv = .next (afterStep sInv) := by
  refine ⟨⟨⟨.inl (by decide), fun _ => by decide⟩, ⟨fun h => absurd h (by decide), fun _ => ?_⟩, fun _ => by decide,
    fun e he => ?_, fun r hr => ?_⟩, by rfl⟩
  · exact ⟨0, 1000, s0.ovr, by decide, by decide⟩
  · have h : ∀ e ∈ sInv.writes, e.off.toNat % 4 = 0 := by decide
    exact h e he
  · have h : ∀ r ∈ sInv.reports, r.ddrMax = sInv.params.ddrMax ∧ r.rounded > r.ddrMax ∧ r.rounded % 12 = 0 ∧
      r.rawDdr ≤ r.rounded ∧ r.rounded < r.rawDdr + 12 := by decide
    exact h r hr
theorem witness_HistoriesOnlyGrow :
    Host.Core.run Sys2Proof.core 1 (s0.withFetchWord 32 0x03000090) = .next (afterStep (s0.withFetchWord 32 0x03000090)) := by
  rfl
theorem witness_ConfigurationIsFixed :
    Host.Core.run Sys2Proof.core 1 { sImg with port := [.reset] } = .next (afterStep { sImg with port := [.reset] }) := by
  rfl
theorem witness_PackedFieldsAreIndependent : ∀ k : Fin 4, (fun k : Fin 4 => 252 + k.val) k ≤ 255 := by decide
theorem witness_CommitInvalidatesTheImages : exec .compute sMode = .next (after .compute sMode) ∧
    (sMode.mode.valid = true ∧ rawDdr sMode.params sMode.mode ≠ 0) ∧ exec .compute sImg = .next (after .compute sImg) ∧
    sImg.mode.valid = false ∧ sImg.imgValid = true := ⟨exec_after _ _, by decide, exec_after _ _, by decide, by decide⟩
theorem witness_ComputeIsIdempotent : (sMode.mode.valid = true ∧ rawDdr sMode.params sMode.mode ≠ 0) ∧
    exec .compute sMode = .next (after .compute sMode) ∧
    execAll [.calcddr 72] (after .compute sMode) = .next (after (.calcddr 72) (after .compute sMode)) ∧
    execAll (expand .bringup) sMode = .next (after .write (after .pack (after .compute sMode))) ∧
    (∀ i ∈ [Instr.calcddr 72], (∀ d f c l, i ≠ .setmode d f c l) ∧ (∀ q x, i ≠ .setovr q x) ∧ (∀ g, i ≠ .clrovr g)) :=
  ⟨by decide, exec_after _ _, by rw [execAll_cons (exec_after _ _)]; rfl,
    by simp only [expand]
       rw [execAll_cons (exec_after _ _), execAll_cons (exec_after _ _), execAll_cons (exec_after _ _)]; rfl,
    fun i hi => by cases List.mem_singleton.1 hi; simp⟩
theorem witness_GenericPackerSequence : (0x10#16).toNat % 4 = 0 := by decide

end Sys2Proof.Tests
end

/-! The configuration check of 00_scope.md R8 (obligation O6). -/

namespace Sys2Proof

theorem biasOk_iff (b : Nat) : biasOk b = true ↔ b = 1 ∨ b = 2 := by
  simp [biasOk]

/-- The eight checks of the bias table, as one statement over the intervals. -/
theorem biasesOk_iff (b : PerInterval Nat) : biasesOk b = true ↔ ∀ q : Interval, b.get q = 1 ∨ b.get q = 2 := by
  simp only [biasesOk, Bool.and_eq_true, biasOk_iff]
  constructor
  · rintro ⟨⟨⟨⟨⟨⟨⟨hp, hz⟩, ht⟩, he⟩, cp⟩, cz⟩, ct⟩, ce⟩ q
    cases q <;> assumption
  · intro h
    exact ⟨⟨⟨⟨⟨⟨⟨h .hsPrep, h .hsZero⟩, h .hsTrail⟩, h .hsExit⟩, h .clkPrep⟩, h .clkZero⟩, h .clkTrail⟩, h .clkExit⟩

end Sys2Proof

namespace Sys2Proof.Machine

/-- WRITE's order names every timing register. -/
theorem mem_writeOrder (r : TimingReg) : r ∈ writeOrder := by
  cases r <;> simp [writeOrder]

theorem writeOrder_nodup : writeOrder.Nodup := by decide

/-- The offsets listed in WRITE's order have no duplicate exactly when no two registers share an offset. -/
theorem nodup_offsets_iff (c : Cfg) :
    (writeOrder.map (regOffset c)).Nodup ↔ ∀ r r' : TimingReg, regOffset c r = regOffset c r' → r = r' := by
  rw [List.nodup_map_iff_inj_on writeOrder_nodup]
  exact ⟨fun h r r' => h r (mem_writeOrder r) r' (mem_writeOrder r'), fun h r _ r' _ => h r r'⟩

/-- The four alignment checks, as one statement over the registers. -/
theorem offsets_aligned_iff (c : Cfg) :
    (∀ r : TimingReg, (regOffset c r).toNat % 4 = 0) ↔
      c.offDphyParam.toNat % 4 = 0 ∧ c.offClkLaneTiming.toNat % 4 = 0 ∧
      c.offLpByteclk.toNat % 4 = 0 ∧ c.offClkLaneSwt.toNat % 4 = 0 := by
  constructor
  · intro h
    exact ⟨h .dphyParam, h .clkLaneTiming, h .lpByteclk, h .clkLaneSwt⟩
  · rintro ⟨dphy, clk, lp, swt⟩ r
    cases r <;> assumption

/-- The Boolean check of the OPEN parameters, read as R8's conditions. -/
theorem openParams_admitted_iff (c : Cfg) :
    c.toOpenParams.admitted = true ↔
      c.ddrMax % 12 = 0 ∧ 12 ≤ c.ddrMax ∧ c.ddrMax ≤ 4000 ∧ 1 ≤ c.refMhz ∧ c.refMhz ≤ 65535 ∧
      (∀ r : TimingReg, (regOffset c r).toNat % 4 = 0) ∧
      (∀ r r' : TimingReg, regOffset c r = regOffset c r' → r = r') := by
  rw [offsets_aligned_iff, ← nodup_offsets_iff]
  simp only [OpenParams.admitted, Bool.and_eq_true, decide_eq_true_eq, and_assoc]
  rfl

/-- Settles O6: the OPEN parameters' part of the check and the bias table, each by its own equivalence. -/
theorem configurationCheckIsTheSpecs : Obligations.ConfigurationCheckIsTheSpecs := by
  intro c
  simp only [Cfg.admitted, Bool.and_eq_true, decide_eq_true_eq, openParams_admitted_iff, biasesOk_iff]
  tauto

end Sys2Proof.Machine

/-! Bounds on what the timing calculator computes under the default parameters, and R11's consequence that every value
a commit stores fits its 32-bit field (obligation O20). -/

namespace Sys2Proof

@[simp] theorem PerInterval.get_map {α β : Type} (f : α → β) (p : PerInterval α) (q : Interval) :
    (p.map f).get q = f (p.get q) := by
  cases q <;> rfl

end Sys2Proof

namespace Sys2Proof.Machine

@[simp] theorem PerCount.get_map {α β : Type} (f : α → β) (p : PerCount α) (q : Count) :
    (p.map f).get q = f (p.get q) := by
  cases q <;> rfl

/-! ### The arithmetic -/

theorem ceilDiv_le_self (a b : Nat) : ceilDiv a b ≤ a := by
  rcases Nat.eq_zero_or_pos b with rfl | hb
  · simp [ceilDiv]
  · exact (ceilDiv_le_iff hb).2 (Nat.le_mul_of_pos_right a hb)

theorem roundDiv_le_self (a b : Nat) : roundDiv a b ≤ a := by
  rcases Nat.eq_zero_or_pos b with rfl | hb
  · simp [roundDiv]
  · have hab : a ≤ b * a := Nat.le_mul_of_pos_left a hb
    rw [roundDiv, Nat.div_le_iff_le_mul_add_pred hb]
    omega

theorem unitIntervals_le (k ddr : Nat) : unitIntervals k ddr ≤ k * 500 := ceilDiv_le_self _ _

/-- Where the period is cut to an integer, a tick is at least one nanosecond: converting never enlarges. -/
theorem ticks_le_of_intPeriod {c : Cfg} (h : c.periodMode = .intPeriod) (ddr : Nat) (m : RoundMode) (t : Nat) :
    ticks c ddr m t ≤ t := by
  cases m with
  | ceil => simpa only [ticks, h] using ceilDiv_le_self t _
  | nearest => simpa only [ticks, h] using roundDiv_le_self t _

/-! ### The resolved frequency -/

theorem resolvedDdr_le_ddrMax (c : Cfg) (raw : Nat) : resolvedDdr c raw ≤ c.ddrMax := by
  simp only [resolvedDdr, clamps, decide_eq_true_eq]
  split <;> omega

theorem resolvedDdr_le_4000 (c : AdmittedCfg) (raw : Nat) : resolvedDdr c.params raw ≤ 4000 :=
  (resolvedDdr_le_ddrMax c.params raw).trans c.ddrMax_bounds.2

/-! ### Intervals and counts under the default parameters -/

/-- The largest interval is `T_HS_ZERO`, whose positive part is `170 + unitIntervals 10`. -/
theorem timingIntervals_ofOpen_get_le (p : OpenParams) (ddr : Nat) (q : Interval) :
    (timingIntervals (Cfg.ofOpen p) ddr).get q ≤ 5170 := by
  have u0 := unitIntervals_le 0 ddr
  have u4 := unitIntervals_le 4 ddr
  have u8 := unitIntervals_le 8 ddr
  have u10 := unitIntervals_le 10 ddr
  cases q with
  | hsPrep => simp only [PerInterval.get, timingIntervals, tHsPrep]; omega
  | hsZero => simp only [PerInterval.get, timingIntervals, tHsZero, clamp0_eq_toNat]; omega
  | hsTrail => simp only [PerInterval.get, timingIntervals, tHsTrail, Cfg.ofOpen, Nat.one_mul]; omega
  | hsExit => simp only [PerInterval.get, timingIntervals, tHsExit, Cfg.ofOpen]; omega
  | clkPrep => simp only [PerInterval.get, timingIntervals, tClkPrep, Cfg.ofOpen]; omega
  | clkZero => simp only [PerInterval.get, timingIntervals, tClkZero, Cfg.ofOpen, clamp0_eq_toNat]; omega
  | clkTrail => simp only [PerInterval.get, timingIntervals, tClkTrail, Cfg.ofOpen]; omega
  | clkExit => simp only [PerInterval.get, timingIntervals, tClkExit, Cfg.ofOpen]; omega

/-- A count is at most its ticks, and those are at most the interval's nanoseconds. -/
theorem intervalCount_ofOpen_le (p : OpenParams) (ddr : Nat) (q : Interval) :
    intervalCount (Cfg.ofOpen p) ddr q ≤ 5170 := by
  have hticks := ticks_le_of_intPeriod (c := Cfg.ofOpen p) rfl ddr ((Cfg.ofOpen p).rm.get q)
    ((timingIntervals (Cfg.ofOpen p) ddr).get q)
  have hint := timingIntervals_ofOpen_get_le p ddr q
  rw [intervalCount, clamp0_eq_toNat]
  omega

/-- An override holds a byte, so it keeps every bound of 255 or more. -/
theorem override_le {o : PerCount OvrEntry} {q : Count} {v m : Nat} (hv : v ≤ m) (hm : 255 ≤ m) :
    override o q v ≤ m := by
  have hbyte := (o.get q).val.isLt
  rw [override]
  split <;> omega

theorem finalIntervalCount_ofOpen_le (p : OpenParams) (ddr : Nat) (o : PerCount OvrEntry) (i : Interval) (q : Count) :
    finalIntervalCount (Cfg.ofOpen p) ddr o i q ≤ 5170 :=
  override_le (intervalCount_ofOpen_le p ddr i) (by decide)

theorem finalLpDiv_le {ddr : Nat} (h : ddr ≤ 4000) (o : PerCount OvrEntry) : finalLpDiv ddr o ≤ 255 := by
  have hdiv : lpDivCount ddr ≤ 255 := (ceilDiv_le_iff (by decide)).2 (by simp only [lpdivDen]; omega)
  exact override_le hdiv le_rfl

/-- The largest count is `CLK_LP2HS`: `4 * LP_DIV`, two interval counts and 2. -/
theorem timingCounts_ofOpen_get_le (p : OpenParams) {ddr : Nat} (h : ddr ≤ 4000) (o : PerCount OvrEntry) (q : Count) :
    (timingCounts (Cfg.ofOpen p) ddr o).get q ≤ 11362 := by
  have hdiv := finalLpDiv_le h o
  have hcount := finalIntervalCount_ofOpen_le p ddr o
  cases q with
  | lpDiv => exact hdiv.trans (by decide)
  | clkHs2Lp =>
    have htrail := hcount .clkTrail .clkTrail
    have hexit := hcount .clkExit .clkExit
    refine override_le ?_ (by decide)
    simp only [hs2LpCount, clamp0_eq_toNat, Cfg.ofOpen] at htrail hexit ⊢
    omega
  | clkLp2Hs =>
    have hprep := hcount .clkPrep .clkPrep
    have hzero := hcount .clkZero .clkZero
    refine override_le ?_ (by decide)
    simp only [lp2HsCount, clamp0_eq_toNat, Cfg.ofOpen] at hprep hzero ⊢
    omega
  | hsPrep | hsZero | hsTrail | hsExit | clkPrep | clkZero | clkTrail | clkExit =>
    exact (hcount _ _).trans (by decide)

/-- Settles O20: each stored value is bounded, and `store32` keeps a value below `2^32`. -/
theorem storedValuesFitByDefault : Obligations.StoredValuesFitByDefault := by
  intro c pclk raw o hdefault hpclk hraw _ d p
  have hd : d ≤ 4000 := resolvedDdr_le_4000 c raw
  have hbp : byteNsNum / d ≤ 4000 := Nat.div_le_self _ _
  have hintervals (q : Interval) : p.intervals.get q ≤ 5170 := by
    simpa only [p, timing, ← hdefault] using timingIntervals_ofOpen_get_le c.params.toOpenParams d q
  have hcounts (q : Count) : p.counts.get q ≤ 11362 := by
    simpa only [p, timing, ← hdefault] using timingCounts_ofOpen_get_le c.params.toOpenParams hd o q
  refine ⟨store32_of_lt (by omega), store32_of_lt (by omega), store32_of_lt (by omega), store32_of_lt (by omega),
    fun q => ?_, fun q => ?_⟩
  · simpa only [planOf, PerInterval.get_map] using store32_of_lt ((hintervals q).trans_lt (by decide))
  · simpa only [planOf, PerCount.get_map] using store32_of_lt ((hcounts q).trans_lt (by decide))

end Sys2Proof.Machine

/-! What one command and one step can do, each said once as an inductive relation with one constructor per way to go
on; the invariants below are case splits over these. -/

namespace Sys2Proof.Machine

/-! ### The step, by the oldest port event (obligations O7 and O11) -/

theorem accept_of_port {s : State} {e : PortEvent} {rest : List PortEvent} (h : s.port = e :: rest) :
    accept s = some (e, s.withPort rest) := by
  simp only [accept, h]

theorem step_of_idle {s : State} (h : s.port = []) : step s = .next s := by
  simp only [step, accept, h]

theorem step_of_reset {s : State} {rest : List PortEvent} (h : s.port = .reset :: rest) :
    step s = .next (resetBlock (s.withPort rest)) := by
  simp only [step, accept_of_port h]

theorem step_of_rejects {s : State} {w : Word} {rest : List PortEvent} (h : s.port = .command w :: rest)
    (hw : Rejects w) : step s = .next (executeIllegal (s.withPort rest)) := by
  obtain ⟨e, he⟩ := hw
  simp only [step, accept_of_port h, he]

/-- Settles O7. -/
theorem stepRunsDecodedCommand : Obligations.StepRunsDecodedCommand :=
  fun _ _ _ _ hport hdecode => step_of_decode (accept_of_port hport) hdecode

/-- Settles O11. -/
theorem idlePortWaits : Obligations.IdlePortWaits :=
  fun _ hport => step_of_idle hport

/-! ### What a command can do -/

/-- The state a command gives from `s`: it is rejected with one of its errors, or has its one effect. -/
inductive CommandEffect (s : State) : Instr → State → Prop
  | rejected {i : Instr} {e : ErrBit} (he : e ∈ raisedBy i) (hrej : e.rejecting = true) :
      CommandEffect s i (raiseErr e s)
  | nop : CommandEffect s .nop s
  | setmode (div : Byte) (fmt : PixelFormat) (cls : VideoClass) (lanes : Nat) :
      CommandEffect s (.setmode div fmt cls lanes) (s.withMode ⟨true, div, fmt, cls, lanes⟩)
  | compute (hmode : s.mode.valid = true) (hraw : rawDdr s.params s.mode ≠ 0) :
      CommandEffect s .compute (resolve (pixelClock s.params s.mode) (rawDdr s.params s.mode) s)
  | calcddr {raw : Nat} (hraw : raw ≠ 0) : CommandEffect s (.calcddr raw) (resolve 0 raw s)
  | setovr (q : Count) (v : Byte) : CommandEffect s (.setovr q v) (s.withOvr (s.ovr.set q ⟨true, v⟩))
  | clrovr (target : OvrTarget) : CommandEffect s (.clrovr target) (s.withOvr (clearOverride s.ovr target))
  | pack (hplan : s.plan.valid = true) :
      CommandEffect s .pack ((recordOverflow s).withImages (packImages s.params.fieldPolicy s.plan.counts))
  | write (himg : s.imgValid = true) : CommandEffect s .write (writeImages s)
  | setfld (k : Nat) (v : Byte) : CommandEffect s (.setfld k v) (s.withStg (setByteField s.stg k v))
  | clrstg : CommandEffect s .clrstg (s.withStg 0#32)
  | wrstg {off : Half} (hoff : off.toNat % 4 = 0) : CommandEffect s (.wrstg off) (mmioWrite off s.stg s)
  | rdres (sel : ResultSel) : CommandEffect s (.rdres sel) (s.withResult (resultField s sel))
  | rdstat : CommandEffect s .rdstat (s.withResult (statusWord s))
  | clrstat (m : Byte) : CommandEffect s (.clrstat m) (s.withSticky (clearSticky s.sticky m))

theorem resolve_zero (pclk : Nat) (s : State) : resolve pclk 0 s = raiseErr .ddrZero s :=
  ((resolve_cases pclk 0 s).resolve_right fun hcommit => hcommit.1 rfl).2

theorem resolve_of_ne_zero (pclk : Nat) {raw : Nat} (s : State) (h : raw ≠ 0) :
    resolve pclk raw s = (recordClamp raw s).withPlan
      (planOf pclk raw (resolvedDdr s.params raw) (timing s.params (resolvedDdr s.params raw) s.ovr)) :=
  ((resolve_cases pclk raw s).resolve_left fun hreject => h hreject.1).2

/-- The inversion of `exec`: the five commands that can be rejected branch on the condition the spec gives them. -/
theorem commandEffect_of_exec {i : Instr} {s t : State} (h : exec i s = .next t) : CommandEffect s i t := by
  cases i with
  | compute =>
    cases h
    split
    next hmode =>
      by_cases hraw : rawDdr s.params s.mode = 0
      · rw [hraw, resolve_zero]
        exact .rejected (by decide) rfl
      · exact .compute hmode hraw
    next => exact .rejected (by decide) rfl
  | calcddr raw =>
    cases h
    by_cases hraw : raw = 0
    · rw [hraw, resolve_zero]
      exact .rejected (by simp [raisedBy]) rfl
    · exact .calcddr hraw
  | pack =>
    cases h
    split
    next hplan => exact .pack hplan
    next => exact .rejected (by decide) rfl
  | write =>
    cases h
    split
    next himg => exact .write himg
    next => exact .rejected (by decide) rfl
  | wrstg off =>
    cases h
    split
    next hoff => exact .wrstg (of_decide_eq_true hoff)
    next => exact .rejected (by simp [raisedBy]) rfl
  | nop => cases h; exact .nop
  | setmode => cases h; exact .setmode ..
  | setovr => cases h; exact .setovr ..
  | clrovr => cases h; exact .clrovr ..
  | setfld => cases h; exact .setfld ..
  | clrstg => cases h; exact .clrstg
  | rdres => cases h; exact .rdres ..
  | rdstat => cases h; exact .rdstat
  | clrstat => cases h; exact .clrstat ..

/-! ### What a step can do -/

/-- The state a step gives from `s`, by the oldest port event. -/
inductive StepEffect (s : State) : State → Prop
  | idle (hport : s.port = []) : StepEffect s s
  | reset {rest : List PortEvent} (hport : s.port = .reset :: rest) : StepEffect s (resetBlock (s.withPort rest))
  | command {w : Word} {rest : List PortEvent} {i : Instr} {t : State} (hport : s.port = .command w :: rest)
      (hdecode : decode w = .ok i) (heffect : CommandEffect (s.withPort rest) i t) : StepEffect s t
  | illegal {w : Word} {rest : List PortEvent} (hport : s.port = .command w :: rest) (hw : Rejects w) :
      StepEffect s (executeIllegal (s.withPort rest))

theorem stepEffect_of_step {s t : State} (h : step s = .next t) : StepEffect s t := by
  match hport : s.port with
  | [] =>
    rw [step_of_idle hport] at h
    cases h
    exact .idle hport
  | .reset :: rest =>
    rw [step_of_reset hport] at h
    cases h
    exact .reset hport
  | .command w :: rest =>
    cases hdecode : decode w with
    | ok i =>
      rw [step_of_decode (accept_of_port hport) hdecode] at h
      exact .command hport hdecode (commandEffect_of_exec h)
    | error e =>
      rw [step_of_rejects hport ⟨e, hdecode⟩] at h
      cases h
      exact .illegal hport ⟨e, hdecode⟩

/-- What every step relates, every run relates, where the relation is reflexive and transitive. -/
theorem run_relates {R : State → State → Prop} (hrefl : ∀ s, R s s) (htrans : ∀ {s t u}, R s t → R t u → R s u)
    (hstep : ∀ {s t}, StepEffect s t → R s t) {n : Nat} {s t : State}
    (h : Host.Core.run Sys2Proof.core n s = .next t) : R s t := by
  induction n generalizing s with
  | zero => cases h; exact hrefl _
  | succ n ih =>
    simp only [Host.Core.run] at h
    split at h
    next u hs => exact htrans (hstep (stepEffect_of_step hs)) (ih h)
    next => cases h
    next => cases h

end Sys2Proof.Machine

/-! The parts of the state a command cannot touch: the configuration never (obligation O57), the two histories only by
appending to them (obligation O56). -/

namespace Sys2Proof.Machine

/-! ### The recording operations leave the rest of the state -/

@[simp] theorem recordClamp_cfg (raw : Nat) (s : State) : (recordClamp raw s).cfg = s.cfg := by
  rw [recordClamp]; split <;> rfl

@[simp] theorem recordClamp_params (raw : Nat) (s : State) : (recordClamp raw s).params = s.params :=
  congrArg AdmittedCfg.params (recordClamp_cfg raw s)

/-- Recording an overflow touches the sticky bits only. -/
theorem recordOverflow_eq_withSticky (s : State) : ∃ b : Byte, recordOverflow s = s.withSticky b := by
  rw [recordOverflow]
  split
  · exact ⟨_, rfl⟩
  · exact ⟨s.sticky, rfl⟩

/-! ### The configuration -/

theorem CommandEffect.cfg_eq {s t : State} {i : Instr} (h : CommandEffect s i t) : t.cfg = s.cfg := by
  cases h with
  | compute _ hraw | calcddr hraw => rw [resolve_of_ne_zero _ _ hraw]; exact recordClamp_cfg _ _
  | pack =>
    obtain ⟨b, hb⟩ := recordOverflow_eq_withSticky s
    rw [hb]
    rfl
  | write => rw [writeImages_spec]
  | rejected | nop | setmode | setovr | clrovr | setfld | clrstg | wrstg | rdres | rdstat | clrstat => rfl

theorem StepEffect.cfg_eq {s t : State} (h : StepEffect s t) : t.cfg = s.cfg := by
  cases h with
  | command _ _ heffect => exact heffect.cfg_eq
  | idle | reset | illegal => rfl

/-- Settles O57: no step changes the configuration. -/
theorem configurationIsFixed : Obligations.ConfigurationIsFixed :=
  fun _ _ _ hrun =>
    run_relates (R := fun s t => t.cfg = s.cfg) (fun _ => rfl) (fun hst htu => htu.trans hst) StepEffect.cfg_eq hrun

/-! ### The histories -/

/-- Both histories of `t` are those of `s` with entries appended. -/
def HistoriesExtend (s t : State) : Prop := s.writes <+: t.writes ∧ s.reports <+: t.reports

theorem HistoriesExtend.refl (s : State) : HistoriesExtend s s := ⟨⟨[], by simp⟩, ⟨[], by simp⟩⟩

theorem HistoriesExtend.trans {s t u : State} (hst : HistoriesExtend s t) (htu : HistoriesExtend t u) :
    HistoriesExtend s u :=
  ⟨hst.1.trans htu.1, hst.2.trans htu.2⟩

theorem historiesExtend_pushWrite (s : State) (e : MmioWrite) : HistoriesExtend s (s.pushWrite e) :=
  ⟨⟨[e], rfl⟩, (HistoriesExtend.refl s).2⟩

theorem historiesExtend_pushReport (s : State) (r : Report) : HistoriesExtend s (s.pushReport r) :=
  ⟨(HistoriesExtend.refl s).1, ⟨[r], rfl⟩⟩

theorem historiesExtend_recordClamp (raw : Nat) (s : State) : HistoriesExtend s (recordClamp raw s) := by
  rw [recordClamp]
  split
  · exact historiesExtend_pushReport (raiseErr .cfgErr s) _
  · exact .refl s

theorem historiesExtend_writeImages (s : State) : HistoriesExtend s (writeImages s) :=
  List.foldlRecOn writeOrder _ (HistoriesExtend.refl s)
    fun t ht r _ => ht.trans (historiesExtend_pushWrite t ⟨regOffset s.params r, s.img.get r⟩)

theorem CommandEffect.historiesExtend {s t : State} {i : Instr} (h : CommandEffect s i t) : HistoriesExtend s t := by
  cases h with
  | compute _ hraw | calcddr hraw => rw [resolve_of_ne_zero _ _ hraw]; exact historiesExtend_recordClamp _ s
  | pack =>
    obtain ⟨b, hb⟩ := recordOverflow_eq_withSticky s
    rw [hb]
    exact .refl s
  | write => exact historiesExtend_writeImages s
  | wrstg => exact historiesExtend_pushWrite s _
  | rejected | nop | setmode | setovr | clrovr | setfld | clrstg | rdres | rdstat | clrstat => exact .refl s

theorem StepEffect.historiesExtend {s t : State} (h : StepEffect s t) : HistoriesExtend s t := by
  cases h with
  | command _ _ heffect => exact heffect.historiesExtend
  | idle | reset | illegal => exact .refl s

/-- Settles O56: every step appends, resets among them, and so does every run. -/
theorem historiesOnlyGrow : Obligations.HistoriesOnlyGrow := by
  refine ⟨rfl, rfl, fun n s t hrun => ?_⟩
  obtain ⟨⟨ws, hws⟩, ⟨rs, hrs⟩⟩ := run_relates HistoriesExtend.refl HistoriesExtend.trans
    StepEffect.historiesExtend hrun
  exact ⟨⟨ws, hws.symm⟩, ⟨rs, hrs.symm⟩⟩

end Sys2Proof.Machine

/-! The reset state (obligation O10) and the invariant: at reset (obligation O54) and over every step (obligation O55).
Each operation a command is made of keeps it. -/

namespace Sys2Proof

/-! ### What decodes is well-formed -/

theorem decodePlain_eq_ok {sel : Byte} {imm : Half} {i j : Instr} (h : decodePlain sel imm i = .ok j) : j = i := by
  rw [decodePlain] at h
  split at h
  · cases h; rfl
  · cases h

/-- `lanes = IMM[11] + 1` is 1 or 2 (R95). -/
theorem wellFormed_of_decodeSetmode {sel : Byte} {imm : Half} {i : Instr} (h : decodeSetmode sel imm = .ok i) :
    i.wellFormed = true := by
  rw [decodeSetmode] at h
  split at h
  · split at h
    · cases h
      have hbit := (imm.extractLsb' 11 1).isLt
      simp only [Instr.wellFormed, lanesOk, Bool.or_eq_true, beq_iff_eq]
      omega
    · cases h
  · cases h

theorem wellFormed_of_decodeSetfld {sel : Byte} {imm : Half} {i : Instr} (h : decodeSetfld sel imm = .ok i) :
    i.wellFormed = true := by
  rw [decodeSetfld] at h
  split at h
  · next hsel =>
    split at h <;> cases h
    exact decide_eq_true hsel
  · cases h

/-- A decoded command has operands in the ranges its encoding allows (R106), opcode by opcode: opcode `n` is case
`n + 1` of the decoder's split, and the cases left to the end are the commands without operands. -/
theorem wellFormed_of_decode {w : Word} {i : Instr} (h : decode w = .ok i) : i.wellFormed = true := by
  rw [decode, decodeFields] at h
  split at h
  case h_2 => exact wellFormed_of_decodeSetmode h
  case h_4 =>
    split at h <;> cases h
    exact decide_eq_true (Nat.le_of_lt_succ (immField w).isLt)
  case h_5 | h_6 | h_12 =>
    simp only [decodeSetovr, decodeClrovr, decodeRdres] at h
    split at h
    · split at h <;> cases h
      rfl
    · cases h
  case h_9 => exact wellFormed_of_decodeSetfld h
  case h_11 | h_14 =>
    split at h <;> cases h
    rfl
  case h_15 => cases h
  all_goals
    rw [decodePlain_eq_ok h]
    rfl

end Sys2Proof

namespace Sys2Proof.Machine

/-! ### The reset state -/

/-- Settles O10. -/
theorem resetStateHasTheSpecValues : Obligations.ResetStateHasTheSpecValues := by
  have hfields : ∀ p ∈ resultSelectors State.reset, p.2.2 = 0#32 := by decide
  have hovr (q : Count) : State.reset.ovr.get q = ⟨false, 0#8⟩ := by cases q <;> rfl
  exact ⟨rfl, rfl, rfl, hfields, hovr, rfl, rfl, rfl, rfl, rfl, rfl⟩

/-- Every part of the invariant but the two about the histories holds of a block just reset. -/
theorem inv_resetBlock {s : State} (hwrites : WritesAligned s) (hreports : ReportsSound s) : Inv (resetBlock s) := by
  have hmode : ModeLegal (resetBlock s) := ⟨.inl rfl, fun _ => rfl⟩
  have hplan : PlanWhole (resetBlock s) := ⟨fun _ => rfl, nofun⟩
  have himg : ImagesCurrent (resetBlock s) := nofun
  exact ⟨hmode, hplan, himg, hwrites, hreports⟩

/-- Settles O54: `State.reset` is a block just reset with nothing in its histories. -/
theorem invariantAtReset : Obligations.InvariantAtReset :=
  inv_resetBlock (s := State.reset) (fun _ he => absurd he List.not_mem_nil) (fun _ hr => absurd hr List.not_mem_nil)

/-! ### Each operation keeps the invariant -/

theorem Inv.setmode {s : State} (h : Inv s) (div : Byte) (fmt : PixelFormat) (cls : VideoClass) {lanes : Nat}
    (hlanes : lanes = 1 ∨ lanes = 2) : Inv (s.withMode ⟨true, div, fmt, cls, lanes⟩) := by
  obtain ⟨-, hplan, himg, hwrites, hreports⟩ := h
  exact ⟨⟨hlanes, nofun⟩, hplan, himg, hwrites, hreports⟩

theorem Inv.mmioWrite {s : State} (h : Inv s) {off : Half} (hoff : off.toNat % 4 = 0) (v : Word) :
    Inv (mmioWrite off v s) := by
  obtain ⟨hmode, hplan, himg, hwrites, hreports⟩ := h
  refine ⟨hmode, hplan, himg, fun e he => ?_, hreports⟩
  rcases List.mem_append.1 he with hold | hnew
  · exact hwrites e hold
  · rw [List.mem_singleton.1 hnew]
    exact hoff

/-- The offsets of an admitted configuration are aligned. -/
theorem Inv.writeImages {s : State} (h : Inv s) : Inv (writeImages s) :=
  List.foldlRecOn writeOrder _ h fun _ ht r _ => ht.mmioWrite (s.cfg.offset_aligned r) (s.img.get r)

/-- A report is made only where the rounded frequency exceeds `DDR_MAX`. -/
theorem Inv.recordClamp {s : State} (h : Inv s) (raw : Nat) : Inv (recordClamp raw s) := by
  rcases recordClamp_cases raw s with ⟨-, heq⟩ | ⟨hclamp, heq⟩
  · rwa [heq]
  · obtain ⟨hmode, hplan, himg, hwrites, hreports⟩ := h
    rw [heq]
    refine ⟨hmode, hplan, himg, hwrites, fun r hr => ?_⟩
    rcases List.mem_append.1 hr with hold | hnew
    · exact hreports r hold
    · obtain ⟨hle, hlt, hmod⟩ := roundedDdr_bounds raw
      rw [List.mem_singleton.1 hnew]
      exact ⟨rfl, of_decide_eq_true hclamp, hmod, hle, hlt⟩

/-- A commit at a frequency that is not 0 writes the whole plan and invalidates the images. -/
theorem Inv.commit {s : State} (h : Inv s) (pclk : Nat) {raw : Nat} (hraw : raw ≠ 0) (o : PerCount OvrEntry) :
    Inv (s.withPlan (planOf pclk raw (resolvedDdr s.params raw) (timing s.params (resolvedDdr s.params raw) o))) := by
  obtain ⟨hmode, -, -, hwrites, hreports⟩ := h
  exact ⟨hmode, ⟨nofun, fun _ => ⟨pclk, raw, o, hraw, rfl⟩⟩, nofun, hwrites, hreports⟩

theorem Inv.resolve {s : State} (h : Inv s) (pclk : Nat) {raw : Nat} (hraw : raw ≠ 0) : Inv (resolve pclk raw s) := by
  rw [resolve_of_ne_zero pclk s hraw, ← recordClamp_params raw s]
  exact (h.recordClamp raw).commit pclk hraw s.ovr

theorem Inv.pack {s : State} (h : Inv s) (hplan : s.plan.valid = true) :
    Inv ((recordOverflow s).withImages (packImages s.params.fieldPolicy s.plan.counts)) := by
  obtain ⟨hmode, hwhole, -, hwrites, hreports⟩ := h
  obtain ⟨b, hb⟩ := recordOverflow_eq_withSticky s
  rw [hb]
  exact ⟨hmode, hwhole, fun _ => ⟨hplan, rfl⟩, hwrites, hreports⟩

/-- A well-formed command keeps the invariant. The commands that write only `OVR`, `STG`, `RESULT` or the sticky bits
touch nothing it speaks of. -/
theorem CommandEffect.keeps_inv {s t : State} {i : Instr} (h : CommandEffect s i t) (hwf : i.wellFormed = true)
    (hs : Inv s) : Inv t := by
  cases h with
  | setmode div fmt cls lanes =>
    have hlanes : lanes = 1 ∨ lanes = 2 := by simpa [Instr.wellFormed, lanesOk] using hwf
    exact hs.setmode div fmt cls hlanes
  | compute _ hraw | calcddr hraw => exact hs.resolve _ hraw
  | pack hplan => exact hs.pack hplan
  | write => exact hs.writeImages
  | wrstg hoff => exact hs.mmioWrite hoff s.stg
  | rejected | nop | setovr | clrovr | setfld | clrstg | rdres | rdstat | clrstat => exact hs

/-- Settles O55, by the oldest port event; a decoded command is well-formed. -/
theorem stepKeepsTheInvariant : Obligations.StepKeepsTheInvariant := by
  intro s t hs hstep
  cases stepEffect_of_step hstep with
  | idle | illegal => exact hs
  | reset =>
    obtain ⟨-, -, -, hwrites, hreports⟩ := hs
    exact inv_resetBlock hwrites hreports
  | command _ hdecode heffect => exact heffect.keeps_inv (wellFormed_of_decode hdecode) hs

end Sys2Proof.Machine

/-! The sticky error bits: what sets and clears them (obligation O50), and that they gate nothing (obligation O52). -/

namespace Sys2Proof.Machine

/-! ### What a command does to them -/

/-- A command is a CLRSTAT, or leaves the sticky bits, or sets the bit of one of its errors (R290, R291). -/
theorem CommandEffect.sticky_cases {s t : State} {i : Instr} (h : CommandEffect s i t) :
    (∃ m : Byte, i = .clrstat m ∧ t.sticky = clearSticky s.sticky m) ∨ t.sticky = s.sticky ∨
      ∃ e ∈ raisedBy i, t.sticky = setSticky s.sticky e := by
  cases h with
  | clrstat m => exact .inl ⟨m, rfl, rfl⟩
  | rejected he => exact .inr (.inr ⟨_, he, rfl⟩)
  | compute _ hraw | calcddr hraw =>
    rw [resolve_of_ne_zero _ _ hraw, State.withPlan_sticky, recordClamp]
    split
    · exact .inr (.inr ⟨.cfgErr, by simp [raisedBy], rfl⟩)
    · exact .inr (.inl rfl)
  | pack =>
    rw [State.withImages_sticky, recordOverflow]
    split
    · exact .inr (.inr ⟨.fieldOvf, by decide, rfl⟩)
    · exact .inr (.inl rfl)
  | write => rw [writeImages_spec]; exact .inr (.inl rfl)
  | nop | setmode | setovr | clrovr | setfld | clrstg | wrstg | rdres | rdstat => exact .inr (.inl rfl)

/-- Setting a bit clears none (R46). -/
theorem getLsbD_setSticky_of_set {st : Byte} {k : Nat} (h : st.getLsbD k = true) (e : ErrBit) :
    (setSticky st e).getLsbD k = true := by
  simp [setSticky, h]

/-- Of the bits that are set, exactly those of the mask are cleared (R46). -/
theorem getLsbD_clearSticky_of_set {st : Byte} {k : Nat} (hk : k < 8) (h : st.getLsbD k = true) (m : Byte) :
    (clearSticky st m).getLsbD k = !m.getLsbD k := by
  simp [clearSticky, h, hk]

/-- A command under which a set bit goes to 0 is a CLRSTAT that names it, and such a CLRSTAT clears it. -/
theorem CommandEffect.clears_iff {s t : State} {i : Instr} (h : CommandEffect s i t) {k : Nat} (hk : k < 8)
    (hset : s.sticky.getLsbD k = true) :
    t.sticky.getLsbD k = false ↔ ∃ m : Byte, i = .clrstat m ∧ m.getLsbD k = true := by
  constructor
  · intro hclear
    rcases h.sticky_cases with ⟨m, rfl, ht⟩ | ht | ⟨e, -, ht⟩
    · rw [ht, getLsbD_clearSticky_of_set hk hset] at hclear
      exact ⟨m, rfl, by simpa using hclear⟩
    · simp [ht, hset] at hclear
    · simp [ht, getLsbD_setSticky_of_set hset] at hclear
  · rintro ⟨m, rfl, hm⟩
    cases h with
    | clrstat => rw [State.withSticky_sticky, getLsbD_clearSticky_of_set hk hset, hm]; rfl
    | rejected he => cases he

/-- Settles O50: CLRSTAT is the only command that clears, and it clears what its mask names. -/
theorem stickyBitsStayUntilCleared : Obligations.StickyBitsStayUntilCleared := by
  constructor
  · intro s t i k hk hexec hset
    exact (commandEffect_of_exec hexec).clears_iff hk hset
  · intro s t w rest k hport hw hstep hset
    rw [step_of_rejects hport hw] at hstep
    cases hstep
    exact getLsbD_setSticky_of_set hset .illegal

/-! ### They gate nothing -/

/-- `s'` differs from `s` in the sticky bits only. -/
def SameButSticky (s s' : State) : Prop := ∃ b : Byte, s' = s.withSticky b

theorem SameButSticky.ite {s s' t t' : State} {c : Prop} [Decidable c] (hs : SameButSticky s s')
    (ht : SameButSticky t t') : SameButSticky (if c then s else t) (if c then s' else t') := by
  split <;> assumption

theorem sameButSticky_raiseErr (e : ErrBit) (s : State) (b : Byte) :
    SameButSticky (raiseErr e s) (raiseErr e (s.withSticky b)) :=
  ⟨setSticky b e, rfl⟩

theorem sameButSticky_recordClamp (raw : Nat) (s : State) (b : Byte) :
    SameButSticky (recordClamp raw s) (recordClamp raw (s.withSticky b)) :=
  .ite ⟨setSticky b .cfgErr, rfl⟩ ⟨b, rfl⟩

theorem sameButSticky_recordOverflow (s : State) (b : Byte) :
    SameButSticky (recordOverflow s) (recordOverflow (s.withSticky b)) :=
  .ite (sameButSticky_raiseErr .fieldOvf s b) ⟨b, rfl⟩

theorem SameButSticky.withPlan {s s' : State} (h : SameButSticky s s') (p : Plan) :
    SameButSticky (s.withPlan p) (s'.withPlan p) := by
  obtain ⟨b, rfl⟩ := h
  exact ⟨b, rfl⟩

theorem SameButSticky.withImages {s s' : State} (h : SameButSticky s s') (m : Images) :
    SameButSticky (s.withImages m) (s'.withImages m) := by
  obtain ⟨b, rfl⟩ := h
  exact ⟨b, rfl⟩

theorem sameButSticky_resolve (pclk raw : Nat) (s : State) (b : Byte) :
    SameButSticky (resolve pclk raw s) (resolve pclk raw (s.withSticky b)) :=
  .ite (sameButSticky_raiseErr .ddrZero s b) ((sameButSticky_recordClamp raw s b).withPlan _)

/-- Every command but RDSTAT takes states that differ in the sticky bits only to such states. -/
theorem exec_sameButSticky {i : Instr} (hi : i ≠ .rdstat) (s : State) (b : Byte) :
    ∃ t t' : State, exec i s = .next t ∧ exec i (s.withSticky b) = .next t' ∧ SameButSticky t t' := by
  cases i with
  | rdstat => exact absurd rfl hi
  | compute => exact ⟨_, _, rfl, rfl, .ite (sameButSticky_resolve _ _ s b) (sameButSticky_raiseErr .noMode s b)⟩
  | calcddr raw => exact ⟨_, _, rfl, rfl, sameButSticky_resolve 0 raw s b⟩
  | pack =>
    exact ⟨_, _, rfl, rfl,
      .ite ((sameButSticky_recordOverflow s b).withImages _) (sameButSticky_raiseErr .noPlan s b)⟩
  | write => exact ⟨_, _, rfl, rfl, .ite ⟨b, rfl⟩ (sameButSticky_raiseErr .noImage s b)⟩
  | wrstg off => exact ⟨_, _, rfl, rfl, .ite ⟨b, rfl⟩ (sameButSticky_raiseErr .misalign s b)⟩
  | clrstat m => exact ⟨_, _, rfl, rfl, clearSticky b m, rfl⟩
  | nop | setmode | setovr | clrovr | setfld | clrstg | rdres => exact ⟨_, _, rfl, rfl, b, rfl⟩

/-- Settles O52: RDSTAT copies the bits to RESULT, and no other command reads them but to change them. -/
theorem stickyBitsNeverGate : Obligations.StickyBitsNeverGate := by
  intro s b i
  by_cases hi : i = .rdstat
  · subst hi
    exact ⟨_, _, rfl, rfl, rfl, fun h => absurd rfl h⟩
  · obtain ⟨t, _, ht, ht', b', rfl⟩ := exec_sameButSticky hi s b
    exact ⟨t, _, ht, ht', rfl, fun _ => rfl⟩

end Sys2Proof.Machine

/-! The controller register window: what a byte and a word delivered leave at each offset (obligation O44), what WRSTG
and WRITE deliver (obligations O43 and O39), and that nothing written is read back (obligation O53). -/

namespace Sys2Proof.Machine

/-! ### Reading the window after a delivery -/

theorem Memory.read_write (m : Memory) (a b : Nat) (v : Byte) :
    Memory.read (Memory.write m a v) b = if b = a then some v else Memory.read m b := by
  induction m with
  | nil => rfl
  | cons c m ih =>
    obtain ⟨d, u⟩ := c
    rw [Memory.write]
    split
    · rfl
    · split
      next had =>
        subst had
        simp only [Memory.read]
        split <;> rfl
      next had =>
        simp only [Memory.read, ih]
        split
        next hbd => rw [if_neg (by omega)]
        next => rfl

/-- Settles O44. -/
theorem windowReadAfterWrite : Obligations.WindowReadAfterWrite := Memory.read_write

/-- A word is delivered little-endian (R73). -/
theorem Memory.read_writeWord_byte (m : Memory) (a : Nat) (w : Word) {k : Nat} (hk : k < 4) :
    Memory.read (Memory.writeWord m a w) (a + k) = some (w.extractLsb' (8 * k) 8) := by
  simp only [Memory.writeWord, Memory.read_write]
  match k, hk with
  | 0, _ | 1, _ | 2, _ | 3, _ => simp

theorem Memory.read_writeWord_outside (m : Memory) (w : Word) {a b : Nat} (h : b < a ∨ a + 4 ≤ b) :
    Memory.read (Memory.writeWord m a w) b = Memory.read m b := by
  simp only [Memory.writeWord, Memory.read_write]
  rw [if_neg (by omega), if_neg (by omega), if_neg (by omega), if_neg (by omega)]

/-! ### Reading the window of a history -/

/-- The write delivers no byte at offset `a`. -/
def MmioWrite.Misses (e : MmioWrite) (a : Nat) : Prop := a < e.off.toNat ∨ e.off.toNat + 4 ≤ a

/-- Two writes with no byte of the window in common. -/
def MmioWrite.Apart (e e' : MmioWrite) : Prop := e.off.toNat + 4 ≤ e'.off.toNat ∨ e'.off.toNat + 4 ≤ e.off.toNat

theorem MmioWrite.Apart.misses {e e' : MmioWrite} (h : e.Apart e') {k : Nat} (hk : k < 4) :
    e'.Misses (e.off.toNat + k) := by
  simp only [Apart, Misses] at h ⊢
  omega

theorem read_windowOf_of_misses (ws : List MmioWrite) {es : List MmioWrite} {a : Nat} (h : ∀ e ∈ es, e.Misses a) :
    Memory.read (windowOf (ws ++ es)) a = Memory.read (windowOf ws) a := by
  induction es generalizing ws with
  | nil => rw [List.append_nil]
  | cons e es ih =>
    obtain ⟨he, hes⟩ := List.forall_mem_cons.1 h
    rw [List.append_cons, ih _ hes, windowOf_append, Memory.read_writeWord_outside _ _ he]

/-- Among writes that are pairwise apart no later one covers a byte of an earlier one. -/
theorem read_windowOf_of_mem (ws : List MmioWrite) {es : List MmioWrite} (hapart : es.Pairwise MmioWrite.Apart)
    {e : MmioWrite} (he : e ∈ es) {k : Nat} (hk : k < 4) :
    Memory.read (windowOf (ws ++ es)) (e.off.toNat + k) = some (e.value.extractLsb' (8 * k) 8) := by
  obtain ⟨before, later, rfl⟩ := List.append_of_mem he
  have hlater : ∀ e' ∈ later, e'.Misses (e.off.toNat + k) := fun e' he' =>
    ((List.pairwise_cons.1 (List.pairwise_append.1 hapart).2.1).1 e' he').misses hk
  rw [← List.append_assoc, List.append_cons, read_windowOf_of_misses _ hlater, windowOf_append,
    Memory.read_writeWord_byte _ _ _ hk]

/-! ### What a command writes -/

/-- WRITE's four writes, in the order of R225. -/
def imageWrites (s : State) : List MmioWrite := writeOrder.map fun r => ⟨regOffset s.params r, s.img.get r⟩

/-- `s` with another history of writes. -/
def State.withWrites (s : State) (ws : List MmioWrite) : State := { s with writes := ws }

theorem writeImages_eq (s : State) : writeImages s = s.withWrites (s.writes ++ imageWrites s) := writeImages_spec s

theorem exec_write_of_valid {s : State} (h : s.imgValid = true) : exec .write s = .next (writeImages s) :=
  congrArg _ (if_pos h)

theorem exec_write_of_invalid {s : State} (h : ¬ s.imgValid = true) :
    exec .write s = .next (raiseErr .noImage s) :=
  congrArg _ (if_neg h)

theorem aligned_iff {off : Half} : aligned off = true ↔ off.toNat % 4 = 0 := decide_eq_true_iff

theorem exec_wrstg_of_aligned {s : State} {off : Half} (h : off.toNat % 4 = 0) :
    exec (.wrstg off) s = .next (mmioWrite off s.stg s) :=
  congrArg _ (if_pos (aligned_iff.2 h))

theorem exec_wrstg_of_misaligned {s : State} {off : Half} (h : ¬ off.toNat % 4 = 0) :
    exec (.wrstg off) s = .next (raiseErr .misalign s) :=
  congrArg _ (if_neg (mt aligned_iff.1 h))

/-! ### The words delivered (obligations O43 and O39) -/

/-- Settles O43: aligned, the history gains one word, which stands at its own offsets. -/
theorem wrstgDeliversFourBytes : Obligations.WrstgDeliversFourBytes := by
  intro s t off h
  refine ⟨fun hoff => ?_, fun hoff a => ?_⟩
  · rw [exec_wrstg_of_aligned hoff] at h
    cases h
    have hwindow : (mmioWrite off s.stg s).window = Memory.writeWord s.window off.toNat s.stg := windowOf_append _ _
    rw [hwindow]
    exact ⟨fun k hk => Memory.read_writeWord_byte _ _ _ hk, fun a ha => Memory.read_writeWord_outside _ _ ha⟩
  · rw [exec_wrstg_of_misaligned hoff] at h
    cases h
    rfl

/-- Distinct registers have distinct offsets, all multiples of 4 (R8), so their words do not overlap. -/
theorem imageWrites_apart (s : State) : (imageWrites s).Pairwise MmioWrite.Apart := by
  refine List.pairwise_map.2 (writeOrder_nodup.imp fun {r r'} hne => ?_)
  have hoff : regOffset s.params r ≠ regOffset s.params r' :=
    fun heq => hne ((nodup_offsets_iff s.params).1 s.cfg.offsets_nodup r r' heq)
  have hnat := BitVec.toNat_ne.1 hoff
  have hr : (regOffset s.params r).toNat % 4 = 0 := s.cfg.offset_aligned r
  have hr' : (regOffset s.params r').toNat % 4 = 0 := s.cfg.offset_aligned r'
  simp only [MmioWrite.Apart]
  omega

/-- Settles O39: WRITE appends its four writes, no two of which share a byte. -/
theorem writeDeliversEachRegister : Obligations.WriteDeliversEachRegister := by
  intro s t himg h
  rw [exec_write_of_valid himg, writeImages_eq] at h
  cases h
  refine ⟨fun r k hk => ?_, fun a ha => read_windowOf_of_misses s.writes fun e he => ?_⟩
  · exact read_windowOf_of_mem s.writes (imageWrites_apart s) (List.mem_map_of_mem (mem_writeOrder r)) hk
  · obtain ⟨r, -, rfl⟩ := List.mem_map.1 he
    exact ha r

/-! ### What is written is never read (obligation O53) -/

/-- The writes a command issues from `s`. -/
def issuedWrites (s : State) : Instr → List MmioWrite
  | .write => if s.imgValid then imageWrites s else []
  | .wrstg off => if aligned off then [⟨off, s.stg⟩] else []
  | .nop | .setmode _ _ _ _ | .compute | .calcddr _ | .setovr _ _ | .clrovr _ | .pack | .setfld _ _ | .clrstg
  | .rdres _ | .rdstat | .clrstat _ => []

/-- A branch on a condition that does not read the history. -/
theorem ite_withWrites {c : Prop} [Decidable c] {s s' t t' : State} {ws : List MmioWrite}
    (hs : s' = s.withWrites ws) (ht : t' = t.withWrites ws) :
    (if c then s' else t') = (if c then s else t).withWrites ws := by
  split <;> assumption

theorem recordClamp_withWrites (raw : Nat) (s : State) (ws : List MmioWrite) :
    recordClamp raw (s.withWrites ws) = (recordClamp raw s).withWrites ws := ite_withWrites rfl rfl

theorem recordOverflow_withWrites (s : State) (ws : List MmioWrite) :
    recordOverflow (s.withWrites ws) = (recordOverflow s).withWrites ws := ite_withWrites rfl rfl

theorem resolve_withWrites (pclk raw : Nat) (s : State) (ws : List MmioWrite) :
    resolve pclk raw (s.withWrites ws) = (resolve pclk raw s).withWrites ws :=
  ite_withWrites rfl (congrArg (State.withPlan · _) (recordClamp_withWrites raw s ws))

/-- What a command does never depends on the history of writes (R72), and to any history it appends the same ones. -/
theorem exec_withWrites {i : Instr} {s t : State} (h : exec i s = .next t) (ws : List MmioWrite) :
    exec i (s.withWrites ws) = .next (t.withWrites (ws ++ issuedWrites s i)) := by
  cases i with
  | write =>
    by_cases himg : s.imgValid = true
    · rw [exec_write_of_valid himg] at h
      cases h
      rw [exec_write_of_valid (s := s.withWrites ws) himg, issuedWrites, if_pos himg, writeImages_eq]
      rfl
    · rw [exec_write_of_invalid himg] at h
      cases h
      rw [exec_write_of_invalid (s := s.withWrites ws) himg, issuedWrites, if_neg himg, List.append_nil]
      rfl
  | wrstg off =>
    by_cases hoff : off.toNat % 4 = 0
    · rw [exec_wrstg_of_aligned hoff] at h
      cases h
      rw [exec_wrstg_of_aligned hoff, issuedWrites, if_pos (aligned_iff.2 hoff)]
      rfl
    · rw [exec_wrstg_of_misaligned hoff] at h
      cases h
      rw [exec_wrstg_of_misaligned hoff, issuedWrites, if_neg (mt aligned_iff.1 hoff), List.append_nil]
      rfl
  | compute =>
    cases h
    rw [issuedWrites, List.append_nil]
    exact congrArg Host.Outcome.next (ite_withWrites (resolve_withWrites _ _ s ws) rfl)
  | calcddr raw =>
    cases h
    rw [issuedWrites, List.append_nil]
    exact congrArg Host.Outcome.next (resolve_withWrites 0 raw s ws)
  | pack =>
    cases h
    rw [issuedWrites, List.append_nil]
    exact congrArg Host.Outcome.next (ite_withWrites (by rw [recordOverflow_withWrites]; rfl) rfl)
  | nop | setmode | setovr | clrovr | setfld | clrstg | rdres | rdstat | clrstat =>
    cases h
    rw [issuedWrites, List.append_nil]
    rfl

theorem exec_total (i : Instr) (s : State) : ∃ t : State, exec i s = .next t := by
  cases i <;> exact ⟨_, rfl⟩

/-- Settles O53: `exec_withWrites`, for the history there is and for the other one. -/
theorem writtenRegistersAreNeverRead : Obligations.WrittenRegistersAreNeverRead := by
  intro s ws i
  obtain ⟨t, ht⟩ := exec_total i s
  exact ⟨t, issuedWrites s i, exec_withWrites ht s.writes, exec_withWrites ht ws⟩

end Sys2Proof.Machine

/-! The encoding (30_encoding.md): the words that decode are the encodings of the well-formed commands, each decoded to
its own command (obligations O1, O2 and O5), and they are the words that meet the `require` conditions (obligations O3
and O4). -/

namespace Sys2Proof

/-! ### Bit fields as numbers -/

theorem toNat_append_eq_add {m n : Nat} (x : BitVec m) (y : BitVec n) :
    (x ++ y).toNat = x.toNat * 2 ^ n + y.toNat := by
  rw [BitVec.toNat_append, ← Nat.shiftLeft_add_eq_or_of_lt y.isLt, Nat.shiftLeft_eq]

theorem toNat_extractLsb'_eq_mod {n : Nat} (x : BitVec n) (start len : Nat) :
    (x.extractLsb' start len).toNat = x.toNat / 2 ^ start % 2 ^ len := by
  rw [BitVec.extractLsb'_toNat, Nat.shiftRight_eq_div_pow]

theorem immHigh_zero_append (v : Byte) : immHigh (0#8 ++ v : BitVec 16) = 0#8 := BitVec.extractLsb'_append_eq_left

theorem immLow_zero_append (v : Byte) : immLow (0#8 ++ v : BitVec 16) = v := BitVec.extractLsb'_append_eq_right

theorem zero_append_immLow {imm : Half} (h : immHigh imm = 0#8) : (0#8 ++ immLow imm : BitVec 16) = imm := by
  rw [← h]
  exact BitVec.extractLsb'_append_extractLsb' (w := 8) (len := 8)

/-! ### The codes of the named operands (R93 to R95) -/

theorem Count.ofSel_sel (q : Count) : Count.ofSel q.sel.toNat = some q := by
  cases q <;> rfl

theorem Count.sel_of_ofSel {n : Nat} {q : Count} (h : Count.ofSel n = some q) : q.sel.toNat = n := by
  rw [Count.ofSel.eq_def] at h
  split at h <;> cases h <;> rfl

theorem Count.exists_sel {n : Nat} (hlo : 0x03 ≤ n) (hhi : n ≤ 0x0D) : ∃ q : Count, q.sel.toNat = n := by
  have hsome : ∃ q, Count.ofSel n = some q := by
    interval_cases n <;> exact ⟨_, rfl⟩
  obtain ⟨q, hq⟩ := hsome
  exact ⟨q, Count.sel_of_ofSel hq⟩

theorem Count.sel_bounds (q : Count) : 0x03 ≤ q.sel.toNat ∧ q.sel.toNat ≤ 0x0D := by
  cases q <;> decide

theorem OvrTarget.ofSel_sel (t : OvrTarget) : OvrTarget.ofSel t.sel.toNat = some t := by
  cases t with
  | one q =>
    have hne : q.sel.toNat ≠ 0xFF := by have := q.sel_bounds; omega
    simp only [OvrTarget.ofSel, OvrTarget.sel, if_neg hne, Count.ofSel_sel, Option.map_some]
  | all => rfl

theorem OvrTarget.sel_of_ofSel {n : Nat} {t : OvrTarget} (h : OvrTarget.ofSel n = some t) : t.sel.toNat = n := by
  rw [OvrTarget.ofSel] at h
  split at h
  next hn => cases h; exact hn.symm
  next =>
    obtain ⟨q, hq, rfl⟩ := Option.map_eq_some_iff.1 h
    exact Count.sel_of_ofSel hq

theorem ResultSel.ofSel_sel (r : ResultSel) : ResultSel.ofSel r.sel.toNat = some r := by
  cases r with
  | count q => cases q <;> rfl
  | image r => cases r <;> rfl
  | interval q => cases q <;> rfl
  | pclk | rawDdr | ddr | stg | bp | ovrMask => rfl

theorem ResultSel.sel_of_ofSel {n : Nat} {r : ResultSel} (h : ResultSel.ofSel n = some r) : r.sel.toNat = n := by
  rw [ResultSel.ofSel.eq_def] at h
  split at h <;> cases h <;> rfl

theorem ResultSel.exists_sel {n : Nat} (h : n ≤ 0x1C) : ∃ r : ResultSel, r.sel.toNat = n := by
  have hsome : ∃ r, ResultSel.ofSel n = some r := by
    interval_cases n <;> exact ⟨_, rfl⟩
  obtain ⟨r, hr⟩ := hsome
  exact ⟨r, ResultSel.sel_of_ofSel hr⟩

theorem ResultSel.sel_le (r : ResultSel) : r.sel.toNat ≤ 0x1C := by
  cases r with
  | count q => have := q.sel_bounds; simp only [ResultSel.sel]; omega
  | image r => cases r <;> decide
  | interval q => cases q <;> decide
  | pclk | rawDdr | ddr | stg | bp | ovrMask => decide

theorem PixelFormat.ofCode_code (f : PixelFormat) : PixelFormat.ofCode f.code.toNat = some f := by
  cases f <;> rfl

theorem PixelFormat.code_of_ofCode {n : Nat} {f : PixelFormat} (h : PixelFormat.ofCode n = some f) :
    f.code.toNat = n := by
  rw [PixelFormat.ofCode.eq_def] at h
  split at h <;> cases h <;> rfl

theorem PixelFormat.exists_code {n : Nat} (h : n < 3) : ∃ f : PixelFormat, f.code.toNat = n :=
  match n, h with
  | 0, _ => ⟨.bpp16, rfl⟩
  | 1, _ => ⟨.bpp18, rfl⟩
  | 2, _ => ⟨.bpp24, rfl⟩

theorem PixelFormat.code_lt (f : PixelFormat) : f.code.toNat < 3 := by
  cases f <;> decide

theorem VideoClass.ofBit_bit (c : VideoClass) : VideoClass.ofBit (decide (c.bit.toNat = 1)) = c := by
  cases c <;> rfl

theorem VideoClass.bit_ofBit (n : Nat) : (VideoClass.ofBit (decide (n % 2 = 1))).bit.toNat = n % 2 := by
  rcases Nat.mod_two_eq_zero_or_one n with h | h <;> rw [h] <;> rfl

/-! ### SETMODE's immediate (R95) -/

theorem lanesOk_iff {lanes : Nat} : lanesOk lanes = true ↔ lanes = 1 ∨ lanes = 2 := by
  simp [lanesOk]

theorem toNat_setmode_immBits (div : Byte) (fmt : PixelFormat) (cls : VideoClass) {lanes : Nat}
    (h : lanesOk lanes = true) : (Instr.setmode div fmt cls lanes).immBits.toNat =
      (lanes - 1) * 2 ^ 11 + cls.bit.toNat * 2 ^ 10 + fmt.code.toNat * 2 ^ 8 + div.toNat := by
  have hlanes : (lanes - 1) % 2 = lanes - 1 := by
    rw [lanesOk_iff] at h
    omega
  simp only [Instr.immBits, toNat_append_eq_add, BitVec.toNat_ofNat]
  omega

theorem getLsbD_eq_decide {n : Nat} (x : BitVec n) (k : Nat) : x.getLsbD k = decide (x.toNat / 2 ^ k % 2 = 1) := by
  rw [BitVec.getLsbD, Nat.testBit_eq_decide_div_mod_eq]

/-- SETMODE's operands are the quotients and remainders of its immediate. -/
theorem decodeSetmode_immBits (div : Byte) (fmt : PixelFormat) (cls : VideoClass) {lanes : Nat}
    (h : lanesOk lanes = true) :
    decodeSetmode 0#8 (Instr.setmode div fmt cls lanes).immBits = .ok (.setmode div fmt cls lanes) := by
  have himm := toNat_setmode_immBits div fmt cls h
  generalize (Instr.setmode div fmt cls lanes).immBits = imm at himm
  rw [lanesOk_iff] at h
  have hfmt := fmt.code_lt
  have hcls := cls.bit.isLt
  have hdiv := div.isLt
  have hhigh : imm.extractLsb' 12 4 = 0#4 := by
    apply BitVec.eq_of_toNat_eq
    rw [toNat_extractLsb'_eq_mod, BitVec.toNat_ofNat]
    omega
  have hcode : (imm.extractLsb' 8 2).toNat = fmt.code.toNat := by
    rw [toNat_extractLsb'_eq_mod]
    omega
  have hbit : imm.getLsbD 10 = decide (cls.bit.toNat = 1) := by
    rw [getLsbD_eq_decide]
    congr 1
    simp only [eq_iff_iff]
    omega
  have hlanes : (imm.extractLsb' 11 1).toNat + 1 = lanes := by
    rw [toNat_extractLsb'_eq_mod]
    omega
  have hlow : immLow imm = div := by
    apply BitVec.eq_of_toNat_eq
    rw [immLow, toNat_extractLsb'_eq_mod]
    omega
  rw [decodeSetmode, if_pos ⟨rfl, hhigh⟩, hcode, PixelFormat.ofCode_code, hbit, VideoClass.ofBit_bit, hlanes, hlow]

/-! ### Encoding, then decoding -/

theorem decode_packFields (op sel : Byte) (imm : Half) : decode (packFields op sel imm) = decodeFields op sel imm := by
  rw [decode, opField_packFields, selField_packFields, immField_packFields]

theorem decode_encode_eq (i : Instr) : decode (encode i) = decodeFields i.opcode i.selBits i.immBits :=
  decode_packFields _ _ _

theorem decodeFields_encode {i : Instr} (h : i.wellFormed = true) :
    decodeFields i.opcode i.selBits i.immBits = .ok i := by
  cases i with
  | setmode div fmt cls lanes => exact decodeSetmode_immBits div fmt cls h
  | calcddr raw =>
    have hraw : raw ≤ 65535 := of_decide_eq_true h
    have hmod : (BitVec.ofNat 16 raw).toNat = raw := Nat.mod_eq_of_lt (by omega)
    exact congrArg (fun n => Except.ok (Instr.calcddr n)) hmod
  | setovr q v =>
    show decodeSetovr q.sel (0#8 ++ v : BitVec 16) = _
    rw [decodeSetovr, Count.ofSel_sel, immHigh_zero_append, immLow_zero_append]
    rfl
  | clrovr t =>
    show decodeClrovr t.sel 0#16 = _
    rw [decodeClrovr, OvrTarget.ofSel_sel]
    rfl
  | setfld k v =>
    have hk : k ≤ 3 := of_decide_eq_true h
    have hsel : (BitVec.ofNat 8 k).toNat = k := Nat.mod_eq_of_lt (by omega)
    show decodeSetfld (BitVec.ofNat 8 k) (0#8 ++ v : BitVec 16) = _
    rw [decodeSetfld, hsel, if_pos hk, immHigh_zero_append, immLow_zero_append]
    rfl
  | rdres r =>
    show decodeRdres r.sel 0#16 = _
    rw [decodeRdres, ResultSel.ofSel_sel]
    rfl
  | clrstat m =>
    exact (if_pos ⟨rfl, immHigh_zero_append m⟩).trans
      (congrArg (fun v => Except.ok (Instr.clrstat v)) (immLow_zero_append m))
  | nop | compute | pack | write | clrstg | wrstg | rdstat => rfl

/-- Settles O1. -/
theorem decodeOfEncode : Obligations.DecodeOfEncode :=
  fun i hwf => (decode_encode_eq i).trans (decodeFields_encode hwf)

theorem decode_of_encode_eq {i : Instr} {w : Word} (hwf : i.wellFormed = true) (h : encode i = w) :
    decode w = .ok i :=
  h ▸ decodeOfEncode i hwf

/-! ### Decoding, then encoding -/

section
variable {op sel : Byte} {imm : Half} {i : Instr}

theorem encode_eq_packFields (hop : op.toNat = i.opcode.toNat) (hsel : i.selBits = sel) (himm : i.immBits = imm) :
    encode i = packFields op sel imm := by
  rw [encode, hsel, himm, BitVec.eq_of_toNat_eq hop]

theorem encode_of_decodePlain {j : Instr} (h : decodePlain sel imm j = .ok i) (hop : op.toNat = j.opcode.toNat)
    (hsel : j.selBits = 0#8) (himm : j.immBits = 0#16) : encode i = packFields op sel imm := by
  rw [decodePlain] at h
  split at h <;> cases h
  next hzero =>
    obtain ⟨rfl, rfl⟩ := hzero
    exact encode_eq_packFields hop hsel himm

theorem encode_of_decodeSetmode (h : decodeSetmode sel imm = .ok i) (hop : op.toNat = 0x01) :
    encode i = packFields op sel imm := by
  have hwf := wellFormed_of_decodeSetmode h
  rw [decodeSetmode] at h
  split at h
  next hzero =>
    obtain ⟨rfl, hhigh⟩ := hzero
    split at h <;> cases h
    next fmt hfmt =>
      refine encode_eq_packFields hop rfl (BitVec.eq_of_toNat_eq ?_)
      have hcode := PixelFormat.code_of_ofCode hfmt
      have hlow := congrArg BitVec.toNat hhigh
      rw [toNat_setmode_immBits _ _ _ hwf, hcode, getLsbD_eq_decide, VideoClass.bit_ofBit, immLow]
      simp only [toNat_extractLsb'_eq_mod, BitVec.toNat_ofNat] at hlow ⊢
      omega
  next => cases h

theorem encode_of_decodeSetovr (h : decodeSetovr sel imm = .ok i) (hop : op.toNat = 0x04) :
    encode i = packFields op sel imm := by
  rw [decodeSetovr] at h
  split at h
  next q hq =>
    split at h <;> cases h
    next hhigh =>
      exact encode_eq_packFields hop (BitVec.eq_of_toNat_eq (Count.sel_of_ofSel hq)) (zero_append_immLow hhigh)
  next => cases h

theorem encode_of_decodeClrovr (h : decodeClrovr sel imm = .ok i) (hop : op.toNat = 0x05) :
    encode i = packFields op sel imm := by
  rw [decodeClrovr] at h
  split at h
  next t ht =>
    split at h <;> cases h
    next himm =>
      exact encode_eq_packFields hop (BitVec.eq_of_toNat_eq (OvrTarget.sel_of_ofSel ht)) himm.symm
  next => cases h

theorem encode_of_decodeSetfld (h : decodeSetfld sel imm = .ok i) (hop : op.toNat = 0x08) :
    encode i = packFields op sel imm := by
  rw [decodeSetfld] at h
  split at h
  next =>
    split at h <;> cases h
    next hhigh =>
      exact encode_eq_packFields hop (by simp [Instr.selBits]) (zero_append_immLow hhigh)
  next => cases h

theorem encode_of_decodeRdres (h : decodeRdres sel imm = .ok i) (hop : op.toNat = 0x0B) :
    encode i = packFields op sel imm := by
  rw [decodeRdres] at h
  split at h
  next r hr =>
    split at h <;> cases h
    next himm =>
      exact encode_eq_packFields hop (BitVec.eq_of_toNat_eq (ResultSel.sel_of_ofSel hr)) himm.symm
  next => cases h

/-- Opcode `n` is case `n + 1` of the decoder's split. -/
theorem encode_of_decodeFields (h : decodeFields op sel imm = .ok i) : encode i = packFields op sel imm := by
  rw [decodeFields] at h
  split at h
  case h_2 hop => exact encode_of_decodeSetmode h hop
  case h_4 hop =>
    split at h <;> cases h
    next hsel => exact encode_eq_packFields hop hsel.symm (by simp [Instr.immBits])
  case h_5 hop => exact encode_of_decodeSetovr h hop
  case h_6 hop => exact encode_of_decodeClrovr h hop
  case h_9 hop => exact encode_of_decodeSetfld h hop
  case h_11 hop =>
    split at h <;> cases h
    next hsel => exact encode_eq_packFields hop hsel.symm rfl
  case h_12 hop => exact encode_of_decodeRdres h hop
  case h_14 hop =>
    split at h <;> cases h
    next hzero => exact encode_eq_packFields hop hzero.1.symm (zero_append_immLow hzero.2)
  case h_15 => cases h
  case h_1 hop | h_3 hop | h_7 hop | h_8 hop | h_10 hop | h_13 hop => exact encode_of_decodePlain h hop rfl rfl

end

theorem packFields_fields (w : Word) : packFields (opField w) (selField w) (immField w) = w := by
  simp only [packFields, opField, selField, immField]
  rw [BitVec.extractLsb'_append_extractLsb'_eq_extractLsb' (by decide),
    BitVec.extractLsb'_append_extractLsb'_eq_extractLsb' (by decide)]
  exact BitVec.extractLsb'_eq_self

/-- Settles O2. -/
theorem encodeOfDecode : Obligations.EncodeOfDecode :=
  fun w _ h => ⟨wellFormed_of_decode h, (encode_of_decodeFields h).trans (packFields_fields w)⟩

/-- Settles O5: the ten commands are well-formed and encode to their words, so decoding gives them back. -/
theorem workedEncodingsDecode : Obligations.WorkedEncodingsDecode := by
  intro p hp
  have hencode : p.2.wellFormed = true ∧ encode p.2 = p.1 := by
    revert p
    decide
  obtain ⟨hwf, hword⟩ := hencode
  exact ⟨decode_of_encode_eq hwf hword, hword⟩

end Sys2Proof

namespace Sys2Proof.Machine

/-! ### The three fields of a word as numbers (R90) -/

theorem opNat_eq_opField (w : Word) : opNat w = (opField w).toNat := by
  rw [opField, toNat_extractLsb'_eq_mod, opNat]
  omega

theorem selNat_eq_selField (w : Word) : selNat w = (selField w).toNat :=
  (toNat_extractLsb'_eq_mod w 16 8).symm

theorem immNat_eq_immField (w : Word) : immNat w = (immField w).toNat := by
  rw [immField, toNat_extractLsb'_eq_mod, immNat]
  omega

theorem opNat_encode (i : Instr) : opNat (encode i) = i.opcode.toNat := by
  rw [opNat_eq_opField, encode, opField_packFields]

theorem selNat_encode (i : Instr) : selNat (encode i) = i.selBits.toNat := by
  rw [selNat_eq_selField, encode, selField_packFields]

theorem immNat_encode (i : Instr) : immNat (encode i) = i.immBits.toNat := by
  rw [immNat_eq_immField, encode, immField_packFields]

/-- The three fields make up the whole word. -/
theorem eq_of_fields {w w' : Word} (hop : opNat w = opNat w') (hsel : selNat w = selNat w')
    (himm : immNat w = immNat w') : w = w' := by
  apply BitVec.eq_of_toNat_eq
  simp only [opNat, selNat, immNat] at hop hsel himm
  omega

theorem encode_eq_of_fields {i : Instr} {w : Word} (hop : opNat w = i.opcode.toNat) (hsel : selNat w = i.selBits.toNat)
    (himm : immNat w = i.immBits.toNat) : encode i = w :=
  eq_of_fields ((opNat_encode i).trans hop.symm) ((selNat_encode i).trans hsel.symm)
    ((immNat_encode i).trans himm.symm)

/-! ### The `require` conditions (R106) -/

theorem toNat_zero_append (v : Byte) : (0#8 ++ v : BitVec 16).toNat = v.toNat := by
  simp only [toNat_append_eq_add, BitVec.toNat_ofNat]
  omega

theorem zero_append_high (v : Byte) : (0#8 ++ v : BitVec 16).toNat / 2 ^ 8 = 0 := by
  rw [toNat_zero_append]
  omega

/-- The encoding of a well-formed command meets the conditions of its opcode. -/
theorem requireHolds_encode {i : Instr} (h : i.wellFormed = true) : RequireHolds (encode i) := by
  simp only [RequireHolds, opNat_encode, selNat_encode, immNat_encode]
  cases i with
  | nop | compute | pack | write | clrstg | rdstat => exact .inl ⟨by decide, rfl, rfl⟩
  | setmode div fmt cls lanes =>
    have himm := toNat_setmode_immBits div fmt cls h
    have hlanes := lanesOk_iff.1 h
    have hfmt := fmt.code_lt
    have hcls := cls.bit.isLt
    have hdiv := div.isLt
    exact .inr <| .inl ⟨rfl, rfl, by omega, by omega⟩
  | calcddr raw | wrstg off => exact .inr <| .inr <| .inl ⟨by simp [Instr.opcode], rfl⟩
  | setovr q v =>
    obtain ⟨hlo, hhi⟩ := q.sel_bounds
    exact .inr <| .inr <| .inr <| .inl ⟨rfl, hlo, hhi, zero_append_high v⟩
  | clrovr t =>
    refine .inr <| .inr <| .inr <| .inr <| .inl ⟨rfl, ?_, rfl⟩
    cases t with
    | one q => exact .inl q.sel_bounds
    | all => exact .inr rfl
  | setfld k v =>
    have hk : k ≤ 3 := of_decide_eq_true h
    have hsel : (BitVec.ofNat 8 k).toNat ≤ 3 := (Nat.mod_le k _).trans hk
    exact .inr <| .inr <| .inr <| .inr <| .inr <| .inl ⟨rfl, hsel, zero_append_high v⟩
  | rdres r => exact .inr <| .inr <| .inr <| .inr <| .inr <| .inr <| .inl ⟨rfl, r.sel_le, rfl⟩
  | clrstat m => exact .inr <| .inr <| .inr <| .inr <| .inr <| .inr <| .inr ⟨rfl, rfl, zero_append_high m⟩

/-- An immediate that is a byte (R96). -/
theorem exists_byte {n : Nat} (h : n / 2 ^ 8 = 0) : ∃ v : Byte, n = (0#8 ++ v : BitVec 16).toNat := by
  refine ⟨BitVec.ofNat 8 n, ?_⟩
  rw [toNat_zero_append, BitVec.toNat_ofNat]
  omega

theorem exists_setmode_immBits {n : Nat} (hhigh : n / 2 ^ 12 = 0) (hfmt : n / 2 ^ 8 % 4 ≠ 3) :
    ∃ div fmt cls lanes, lanesOk lanes = true ∧ n = (Instr.setmode div fmt cls lanes).immBits.toNat := by
  obtain ⟨fmt, hcode⟩ := PixelFormat.exists_code (n := n / 2 ^ 8 % 4) (by omega)
  have hlanes : lanesOk (n / 2 ^ 11 + 1) = true := by
    rw [lanesOk_iff]
    omega
  refine ⟨BitVec.ofNat 8 n, fmt, VideoClass.ofBit (decide (n / 2 ^ 10 % 2 = 1)), n / 2 ^ 11 + 1, hlanes, ?_⟩
  rw [toNat_setmode_immBits _ _ _ hlanes, hcode, VideoClass.bit_ofBit, BitVec.toNat_ofNat]
  omega

/-- A word that meets the conditions of its opcode is the encoding of a well-formed command. -/
theorem exists_encode_of_requireHolds {w : Word} (h : RequireHolds w) :
    ∃ i : Instr, i.wellFormed = true ∧ encode i = w := by
  have himmlt : immNat w < 2 ^ 16 := Nat.mod_lt _ (by decide)
  rcases h with ⟨hop, hsel, himm⟩ | ⟨hop, hsel, hhigh, hfmt⟩ | ⟨hop, hsel⟩ | ⟨hop, hlo, hhi, hhigh⟩ |
    ⟨hop, hsel, himm⟩ | ⟨hop, hle, hhigh⟩ | ⟨hop, hle, himm⟩ | ⟨hop, hsel, hhigh⟩
  · simp only [List.mem_cons, List.not_mem_nil, or_false] at hop
    rcases hop with hop | hop | hop | hop | hop | hop
    exacts [⟨.nop, rfl, encode_eq_of_fields hop hsel himm⟩, ⟨.compute, rfl, encode_eq_of_fields hop hsel himm⟩,
      ⟨.pack, rfl, encode_eq_of_fields hop hsel himm⟩, ⟨.write, rfl, encode_eq_of_fields hop hsel himm⟩,
      ⟨.clrstg, rfl, encode_eq_of_fields hop hsel himm⟩, ⟨.rdstat, rfl, encode_eq_of_fields hop hsel himm⟩]
  · obtain ⟨div, fmt, cls, lanes, hlanes, himm⟩ := exists_setmode_immBits hhigh hfmt
    exact ⟨.setmode div fmt cls lanes, hlanes, encode_eq_of_fields hop hsel himm⟩
  · have himm : immNat w = (BitVec.ofNat 16 (immNat w)).toNat := (Nat.mod_eq_of_lt himmlt).symm
    simp only [List.mem_cons, List.not_mem_nil, or_false] at hop
    rcases hop with hop | hop
    · exact ⟨.calcddr (immNat w), decide_eq_true (Nat.le_of_lt_succ himmlt), encode_eq_of_fields hop hsel himm⟩
    · exact ⟨.wrstg (BitVec.ofNat 16 (immNat w)), rfl, encode_eq_of_fields hop hsel himm⟩
  · obtain ⟨q, hsel⟩ := Count.exists_sel hlo hhi
    obtain ⟨v, himm⟩ := exists_byte hhigh
    exact ⟨.setovr q v, rfl, encode_eq_of_fields hop hsel.symm himm⟩
  · rcases hsel with ⟨hlo, hhi⟩ | hall
    · obtain ⟨q, hsel⟩ := Count.exists_sel hlo hhi
      exact ⟨.clrovr (.one q), rfl, encode_eq_of_fields hop hsel.symm himm⟩
    · exact ⟨.clrovr .all, rfl, encode_eq_of_fields hop hall himm⟩
  · obtain ⟨v, himm⟩ := exists_byte hhigh
    have hsel : selNat w = (BitVec.ofNat 8 (selNat w)).toNat := (Nat.mod_eq_of_lt (by omega)).symm
    exact ⟨.setfld (selNat w) v, decide_eq_true hle, encode_eq_of_fields hop hsel himm⟩
  · obtain ⟨r, hsel⟩ := ResultSel.exists_sel hle
    exact ⟨.rdres r, rfl, encode_eq_of_fields hop hsel.symm himm⟩
  · obtain ⟨v, himm⟩ := exists_byte hhigh
    exact ⟨.clrstat v, rfl, encode_eq_of_fields hop hsel himm⟩

/-- Settles O3: both sides say that the word is the encoding of a well-formed command. -/
theorem decoderAcceptsWhatIsRequired : Obligations.DecoderAcceptsWhatIsRequired := by
  intro w
  constructor
  · rintro ⟨i, hdecode⟩
    obtain ⟨hwf, rfl⟩ := encodeOfDecode w i hdecode
    exact requireHolds_encode hwf
  · intro h
    obtain ⟨i, hwf, hword⟩ := exists_encode_of_requireHolds h
    exact ⟨i, decode_of_encode_eq hwf hword⟩

theorem decodes_or_rejects (w : Word) : (∃ i : Instr, decode w = .ok i) ∨ Rejects w := by
  cases h : decode w with
  | ok i => exact .inl ⟨i, rfl⟩
  | error e => exact .inr ⟨e, h⟩

theorem rejects_of_not_requireHolds {w : Word} (h : ¬ RequireHolds w) : Rejects w :=
  (decodes_or_rejects w).resolve_left (mt (decoderAcceptsWhatIsRequired w).1 h)

/-- Settles O4: no condition is for an opcode of `0x0E` or above. -/
theorem illegalOpcodesRejected : Obligations.IllegalOpcodesRejected := by
  refine ⟨fun w hop => rejects_of_not_requireHolds fun h => ?_, decodes_or_rejects⟩
  simp only [RequireHolds, List.mem_cons, List.not_mem_nil, or_false] at h
  omega

end Sys2Proof.Machine

/-! The operand forms: one count of the override table (obligation O30), the fields that RDRES reads (obligation O46)
and the bytes of the staging word (obligation O60). -/

namespace Sys2Proof.Machine

/-! ### SETOVR (obligation O30) -/

/-- The fields of R90 with the immediate split at its high byte (R96). -/
theorem append_bytes_eq_packFields (op sel hi lo : Byte) :
    (op ++ sel ++ hi ++ lo : BitVec 32) = packFields op sel (hi ++ lo : BitVec 16) :=
  BitVec.append_assoc

theorem PerCount.get_set {α : Type} (p : PerCount α) (q q' : Count) (v : α) :
    (p.set q v).get q' = if q' = q then v else p.get q' := by
  cases q <;> cases q' <;> rfl

theorem countSelectors_eq : countSelectors = allCountNames.map fun q => (q.sel, q) := rfl

theorem exec_setovr (q : Count) (v : Byte) (s : State) :
    exec (.setovr q v) s = .next (s.withOvr (s.ovr.set q ⟨true, v⟩)) := rfl

/-- Settles O30. -/
theorem setovrEnablesOneEntry : Obligations.SetovrEnablesOneEntry := by
  refine ⟨fun p hp v => ?_, fun w hop hbad => ?_, fun q v s => ?_⟩
  · rw [countSelectors_eq] at hp
    obtain ⟨q, -, rfl⟩ := List.mem_map.1 hp
    exact decode_of_encode_eq rfl (append_bytes_eq_packFields 0x04#8 q.sel 0#8 v).symm
  · refine rejects_of_not_requireHolds fun h => ?_
    simp only [RequireHolds, List.mem_cons, List.not_mem_nil, or_false] at h
    omega
  · exact ⟨_, exec_setovr q v s, (PerCount.get_set ..).trans (if_pos rfl),
      fun q' hne => (PerCount.get_set ..).trans (if_neg hne)⟩

/-! ### RDRES (obligation O46) -/

/-- The results that are stored fields, in selector order (R93): all but `OVR_MASK`. -/
def storedResults : List ResultSel :=
  [[.pclk, .rawDdr, .ddr], allCountNames.map .count, writeOrder.map .image, [.stg, .bp],
    [.hsPrep, .hsZero, .hsTrail, .hsExit, .clkPrep, .clkZero, .clkTrail, .clkExit].map .interval].flatten

theorem resultSelectors_eq (s : State) :
    resultSelectors s = storedResults.map fun r => (r.sel, r, resultField s r) := rfl

theorem exec_rdres (r : ResultSel) (s : State) : exec (.rdres r) s = .next (s.withResult (resultField s r)) := rfl

theorem toNat_append_ofBool {n : Nat} (x : BitVec n) (b : Bool) :
    (x ++ BitVec.ofBool b).toNat = 2 * x.toNat + bit b := by
  rw [toNat_append_eq_add, Nat.mul_comm]
  cases b <;> rfl

theorem ofNat_eq_of_eq_toNat {w n : Nat} {x : BitVec w} (h : n = x.toNat) : BitVec.ofNat w n = x := by
  rw [h, BitVec.ofNat_toNat, BitVec.setWidth_eq]

/-- The enables side by side are their weighted sum (Horner's rule, bit by bit). -/
theorem ovrMask_eq_append (o : PerCount OvrEntry) : ovrMask o =
    (0#21 ++ BitVec.ofBool o.clkLp2Hs.en ++ BitVec.ofBool o.clkHs2Lp.en ++ BitVec.ofBool o.lpDiv.en ++
      BitVec.ofBool o.clkExit.en ++ BitVec.ofBool o.clkTrail.en ++ BitVec.ofBool o.clkZero.en ++
      BitVec.ofBool o.clkPrep.en ++ BitVec.ofBool o.hsExit.en ++ BitVec.ofBool o.hsTrail.en ++
      BitVec.ofBool o.hsZero.en ++ BitVec.ofBool o.hsPrep.en : BitVec 32) := by
  apply ofNat_eq_of_eq_toNat
  simp only [toNat_append_ofBool, BitVec.toNat_ofNat, allCountNames, List.map_cons, List.map_nil, List.sum_cons,
    List.sum_nil, PerCount.get, Count.index]
  omega

/-- Settles O46. -/
theorem rdresReadsTheNamedField : Obligations.RdresReadsTheNamedField := by
  refine ⟨fun w hop hbad => ?_, fun s p hp => ?_, decodeOfEncode (.rdres .ovrMask) rfl, fun s => ?_⟩
  · refine rejects_of_not_requireHolds fun h => ?_
    simp only [RequireHolds, List.mem_cons, List.not_mem_nil, or_false] at h
    omega
  · rw [resultSelectors_eq] at hp
    obtain ⟨r, -, rfl⟩ := List.mem_map.1 hp
    exact ⟨decodeOfEncode (.rdres r) rfl, exec_rdres r s⟩
  · rw [exec_rdres, resultField, ovrMask_eq_append]
    rfl

/-! ### The bytes of the staging word: SETSTG and WRREG (obligation O60) -/

theorem getLsbD_setByteField (w : Word) (k : Nat) (v : Byte) {n : Nat} (hn : n < 32) :
    (setByteField w k v).getLsbD n = if 8 * k ≤ n ∧ n < 8 * k + 8 then v.getLsbD (n - 8 * k) else w.getLsbD n := by
  have hmask : 0xFF#32 = (BitVec.allOnes 8).setWidth 32 := by decide
  rw [setByteField, hmask]
  simp only [BitVec.getLsbD_or, BitVec.getLsbD_and, BitVec.getLsbD_not, BitVec.getLsbD_shiftLeft,
    BitVec.getLsbD_setWidth, BitVec.getLsbD_allOnes, hn, decide_true, Bool.true_and]
  split
  next h =>
    have hlo : ¬ n < 8 * k := by omega
    have hlt : n - 8 * k < 32 := by omega
    have hbyte : n - 8 * k < 8 := by omega
    simp [hlo, hlt, hbyte]
  next h =>
    by_cases hlo : n < 8 * k
    · simp [hlo]
    · have hbyte : ¬ n - 8 * k < 8 := by omega
      simp [hlo, hbyte, BitVec.getLsbD_of_ge v _ (Nat.le_of_not_lt hbyte)]

theorem byteField_setByteField (w : Word) {k j : Nat} (hj : j < 4) (v : Byte) :
    byteField (setByteField w k v) j = if j = k then v else byteField w j := by
  apply BitVec.eq_of_getLsbD_eq
  intro n hn
  have hbit : (byteField (setByteField w k v) j).getLsbD n = (setByteField w k v).getLsbD (8 * j + n) := by
    simp [byteField, hn]
  rw [hbit, getLsbD_setByteField w k v (by omega)]
  split
  next h =>
    obtain rfl : j = k := by omega
    simp
  next h =>
    have hne : j ≠ k := by omega
    simp [hne, byteField, hn]

theorem append_byteFields (w : Word) :
    (byteField w 3 ++ byteField w 2 ++ byteField w 1 ++ byteField w 0 : BitVec 32) = w := by
  simp only [byteField]
  rw [BitVec.extractLsb'_append_extractLsb'_eq_extractLsb' (by decide),
    BitVec.extractLsb'_append_extractLsb'_eq_extractLsb' (by decide),
    BitVec.extractLsb'_append_extractLsb'_eq_extractLsb' (by decide)]
  exact BitVec.extractLsb'_eq_self

theorem exec_setfld (k : Nat) (v : Byte) (s : State) :
    exec (.setfld k v) s = .next (s.withStg (setByteField s.stg k v)) := rfl

/-- Once all four bytes are set nothing is left of the old word. -/
theorem setByteField_all (w : Word) (a b c d : Byte) :
    setByteField (setByteField (setByteField (setByteField w 0 a) 1 b) 2 c) 3 d = (d ++ c ++ b ++ a : BitVec 32) := by
  rw [← append_byteFields (setByteField _ 3 d)]
  simp [byteField_setByteField]

theorem execAll_append {is js : List Instr} {s t : State} (h : execAll is s = .next t) :
    execAll (is ++ js) s = execAll js t := by
  induction is generalizing s with
  | nil => cases h; rfl
  | cons i is ih =>
    obtain ⟨u, hu⟩ := exec_total i s
    rw [execAll_cons hu] at h
    rw [List.cons_append, execAll_cons hu, ih h]

theorem execAll_setstg (s : State) (a b c d : Byte) :
    execAll (expand (.setstg a b c d)) s = .next (s.withStg (d ++ c ++ b ++ a : BitVec 32)) := by
  simp only [expand, execAll, exec_setfld, State.withStg_stg, setByteField_all]
  rfl

/-- Settles O60. -/
theorem genericPackerSequence : Obligations.GenericPackerSequence := by
  refine ⟨execAll_setstg, fun s off a b c d hoff => ?_⟩
  have hexpand : expand (.wrreg off a b c d) = expand (.setstg a b c d) ++ [.wrstg off] := rfl
  rw [hexpand, execAll_append (execAll_setstg s a b c d), execAll_cons (exec_wrstg_of_aligned hoff)]
  rfl

end Sys2Proof.Machine

/-! Resolution and the commit (41_config.md): the rounded and the committed frequency (obligations O18 and O19), what
SETMODE latches (obligation O13), and what COMPUTE and CALCDDR commit (obligations O16 and O17). -/

namespace Sys2Proof

/-! ### SETMODE's word (R90, R95) -/

/-- The word whose fields are those of R95, as the three fields of R90. -/
theorem append_setmode_eq_packFields (l cls : BitVec 1) (fmt : BitVec 2) (div : Byte) :
    (0x01#8 ++ 0#8 ++ 0#4 ++ l ++ cls ++ fmt ++ div : BitVec 32) =
      packFields 0x01#8 0#8 (0#4 ++ l ++ cls ++ fmt ++ div : BitVec 16) := by
  apply BitVec.eq_of_toNat_eq
  simp only [packFields, toNat_append_eq_add]
  omega

theorem PixelFormat.code_ite {fmt : BitVec 2} (h : fmt ≠ 3#2) :
    (if fmt = 0#2 then PixelFormat.bpp16 else if fmt = 1#2 then .bpp18 else .bpp24).code = fmt := by
  revert fmt
  decide

theorem VideoClass.bit_ite (cls : BitVec 1) :
    (if cls = 1#1 then VideoClass.burst else .nonBurst).bit = cls := by
  revert cls
  decide

end Sys2Proof

namespace Sys2Proof.Machine

/-! ### The resolved frequency (R125, R126) -/

theorem roundedDdr_eq (raw : Nat) : roundedDdr raw = (raw + 11) / 12 * 12 := rfl

/-- Settles O18: no multiple of 12 lies between `raw` and a multiple of 12 that is less than 12 above it. -/
theorem roundingIsLeastMultiple : Obligations.RoundingIsLeastMultiple := by
  intro raw
  obtain ⟨hle, hlt, hmod⟩ := roundedDdr_bounds raw
  exact ⟨hle, hmod, fun m hm hraw => by omega⟩

theorem clamps_iff {c : Cfg} {raw : Nat} : clamps c raw = true ↔ c.ddrMax < roundedDdr raw := decide_eq_true_iff

theorem resolvedDdr_of_le {c : Cfg} {raw : Nat} (h : roundedDdr raw ≤ c.ddrMax) :
    resolvedDdr c raw = roundedDdr raw :=
  if_neg (mt clamps_iff.1 (by omega))

theorem resolvedDdr_of_lt {c : Cfg} {raw : Nat} (h : c.ddrMax < roundedDdr raw) : resolvedDdr c raw = c.ddrMax :=
  if_pos (clamps_iff.2 h)

theorem resolvedDdr_eq_ite (c : Cfg) (raw : Nat) :
    resolvedDdr c raw = if c.ddrMax < roundedDdr raw then c.ddrMax else roundedDdr raw := by
  split
  next h => exact resolvedDdr_of_lt h
  next h => exact resolvedDdr_of_le (by omega)

theorem resolvedDdr_mod (c : AdmittedCfg) (raw : Nat) : resolvedDdr c.params raw % 12 = 0 := by
  rcases le_or_gt (roundedDdr raw) c.params.ddrMax with h | h
  · rw [resolvedDdr_of_le h]
    exact (roundedDdr_bounds raw).2.2
  · rw [resolvedDdr_of_lt h]
    exact c.ddrMax_mod

/-- A multiple of 12 that is not 0 is at least 12. -/
theorem twelve_le_resolvedDdr (c : AdmittedCfg) {raw : Nat} (h : raw ≠ 0) : 12 ≤ resolvedDdr c.params raw := by
  have hmod := resolvedDdr_mod c raw
  have hne := mt (resolvedDdr_eq_zero c raw).1 h
  omega

/-! ### The commit (R130, R132) -/

theorem recordClamp_of_le {s : State} {raw : Nat} (h : roundedDdr raw ≤ s.params.ddrMax) : recordClamp raw s = s :=
  if_neg (mt clamps_iff.1 (by omega))

theorem recordClamp_of_lt {s : State} {raw : Nat} (h : s.params.ddrMax < roundedDdr raw) :
    recordClamp raw s = (raiseErr .cfgErr s).pushReport ⟨raw, roundedDdr raw, s.params.ddrMax⟩ :=
  if_pos (clamps_iff.2 h)

/-- The rounded frequency fits: its plan is committed and nothing is recorded. -/
theorem resolve_of_le (pclk : Nat) {raw : Nat} {s : State} (hraw : raw ≠ 0) (h : roundedDdr raw ≤ s.params.ddrMax) :
    resolve pclk raw s = committed pclk raw (roundedDdr raw) s := by
  rw [resolve_of_ne_zero pclk s hraw, recordClamp_of_le h, resolvedDdr_of_le h]
  rfl

/-- The rounded frequency is above the maximum: the maximum's plan is committed, `CFG_ERR` set and one report made. -/
theorem resolve_of_lt (pclk : Nat) {raw : Nat} {s : State} (hraw : raw ≠ 0) (h : s.params.ddrMax < roundedDdr raw) :
    resolve pclk raw s =
      { committed pclk raw s.params.ddrMax s with
        sticky := s.sticky ||| 0x01#8
        reports := s.reports ++ [⟨raw, roundedDdr raw, s.params.ddrMax⟩] } := by
  rw [resolve_of_ne_zero pclk s hraw, recordClamp_of_lt h, resolvedDdr_of_lt h]
  rfl

theorem resolve_plan (pclk : Nat) {raw : Nat} (s : State) (hraw : raw ≠ 0) :
    (resolve pclk raw s).plan =
      planOf pclk raw (resolvedDdr s.params raw) (timing s.params (resolvedDdr s.params raw) s.ovr) := by
  rw [resolve_of_ne_zero pclk s hraw, State.withPlan_plan]

theorem planOf_ddr_toNat (pclk : Nat) {raw ddr : Nat} (p : TimingResult) (h : ddr ≤ 4000) :
    (planOf pclk raw ddr p).ddr.toNat = ddr :=
  store32_of_lt (by omega)

/-! ### The commands -/

theorem exec_setmode (div : Byte) (fmt : PixelFormat) (cls : VideoClass) (lanes : Nat) (s : State) :
    exec (.setmode div fmt cls lanes) s = .next (s.withMode ⟨true, div, fmt, cls, lanes⟩) := rfl

theorem exec_compute_of_valid {s : State} (h : s.mode.valid = true) :
    exec .compute s = .next (resolve (pixelClock s.params s.mode) (rawDdr s.params s.mode) s) :=
  congrArg _ (if_pos h)

theorem exec_calcddr (raw : Nat) (s : State) : exec (.calcddr raw) s = .next (resolve 0 raw s) := rfl

/-! ### SETMODE (obligation O13) -/

/-- The status word's bit 8 mirrors `MODE.valid` (R45). -/
theorem statusWord_bit8 (s : State) : (statusWord s).getLsbD 8 = s.mode.valid := by
  simp only [statusWord, BitVec.getLsbD_append]
  simp

/-- Settles O13. -/
theorem setmodeLatchesMode : Obligations.SetmodeLatchesMode := by
  refine ⟨fun div fmt cls l hfmt => ?_, fun w hop hbad => ?_, fun div fmt cls lanes s => ?_⟩
  · have hlanes : lanesOk (l.toNat + 1) = true := by
      have hbit := l.isLt
      rw [lanesOk_iff]
      omega
    refine decode_of_encode_eq hlanes ?_
    rw [append_setmode_eq_packFields, encode, Instr.immBits, PixelFormat.code_ite hfmt, VideoClass.bit_ite,
      Nat.add_sub_cancel, BitVec.ofNat_toNat, BitVec.setWidth_eq]
    rfl
  · refine rejects_of_not_requireHolds fun h => ?_
    simp only [RequireHolds, List.mem_cons, List.not_mem_nil, or_false] at h
    omega
  · exact ⟨exec_setmode div fmt cls lanes s, statusWord_bit8 _⟩

/-! ### COMPUTE (obligation O16) -/

theorem bpp_eq_ite (fmt : PixelFormat) : bpp fmt = if fmt = .bpp16 then 16 else if fmt = .bpp18 then 18 else 24 := by
  cases fmt <;> rfl

theorem mult_eq_ite (cls : VideoClass) : mult cls = if cls = .burst then 2 else 1 := by
  cases cls <;> rfl

/-- Settles O16. -/
theorem computeCommitsThePlan : Obligations.ComputeCommitsThePlan := by
  refine ⟨decode_of_encode_eq (i := .compute) rfl rfl, ?_⟩
  intro s hmode pclk bits burst raw rounded hne
  have hraw : rawDdr s.params s.mode = raw := by
    simp only [rawDdr, bpp_eq_ite, mult_eq_ite]
    rfl
  have hexec : exec .compute s = .next (resolve pclk raw s) := by
    rw [exec_compute_of_valid hmode, hraw]
    rfl
  have hrounded : rounded = roundedDdr raw := (roundedDdr_eq raw).symm
  rw [hexec, hrounded]
  exact ⟨fun hle => congrArg Host.Outcome.next (resolve_of_le pclk hne hle),
    fun hlt => congrArg Host.Outcome.next (resolve_of_lt pclk hne hlt)⟩

/-! ### CALCDDR (obligation O17) -/

/-- Settles O17. -/
theorem calcddrCommitsThePlan : Obligations.CalcddrCommitsThePlan := by
  refine ⟨fun raw => ?_, fun w hop hsel => ?_, fun s raw => ?_⟩
  · have hwf : rawOk raw.toNat = true := decide_eq_true (Nat.le_of_lt_succ raw.isLt)
    refine decode_of_encode_eq hwf ?_
    rw [encode, Instr.immBits, BitVec.ofNat_toNat, BitVec.setWidth_eq]
    rfl
  · refine rejects_of_not_requireHolds fun h => ?_
    simp only [RequireHolds, List.mem_cons, List.not_mem_nil, or_false] at h
    omega
  · rw [exec_calcddr, ← roundedDdr_eq]
    refine ⟨?_, fun hne hle => congrArg Host.Outcome.next (resolve_of_le 0 hne hle),
      fun hne hlt => congrArg Host.Outcome.next (resolve_of_lt 0 hne hlt)⟩
    rintro rfl
    exact congrArg Host.Outcome.next (resolve_zero 0 s)

/-! ### The committed frequency (obligation O19) -/

/-- Both commands that resolve a frequency run the same `Resolve`. -/
theorem exec_eq_resolve {s : State} {i : Instr} {raw : Nat}
    (h : i = .calcddr raw ∨ (i = .compute ∧ s.mode.valid = true ∧ rawDdr s.params s.mode = raw)) :
    ∃ pclk : Nat, exec i s = .next (resolve pclk raw s) := by
  rcases h with rfl | ⟨rfl, hmode, rfl⟩
  · exact ⟨0, exec_calcddr raw s⟩
  · exact ⟨_, exec_compute_of_valid hmode⟩

/-- Settles O19. -/
theorem committedFrequencyIsLegal : Obligations.CommittedFrequencyIsLegal := by
  intro s i raw hraw hi
  rw [← roundedDdr_eq]
  obtain ⟨pclk, hexec⟩ := exec_eq_resolve hi
  have hplan := resolve_plan pclk s hraw
  have hddr : (resolve pclk raw s).plan.ddr.toNat = resolvedDdr s.params raw := by
    rw [hplan]
    exact planOf_ddr_toNat _ _ (resolvedDdr_le_4000 s.cfg raw)
  refine ⟨_, hexec, by rw [hplan]; rfl, ?_⟩
  rw [hddr]
  refine ⟨resolvedDdr_mod s.cfg raw, twelve_le_resolvedDdr s.cfg hraw, resolvedDdr_le_ddrMax _ _, fun hlt => ?_,
    fun hle => ?_⟩
  · rw [resolve_of_lt pclk hraw hlt]
    exact ⟨resolvedDdr_of_lt hlt, rfl, rfl⟩
  · rw [resolve_of_le pclk hraw hle]
    exact ⟨resolvedDdr_of_le hle, rfl, rfl⟩

end Sys2Proof.Machine

/-! What a commit reads (41_config.md R133): the configuration, MODE and OVR, and no command but SETMODE, SETOVR and
CLROVR changes any of them (obligation O59). -/

namespace Sys2Proof.Machine

/-! ### What a commit reads -/

/-- The two states agree on everything a COMPUTE computes its plan from. -/
structure SameInputs (s t : State) : Prop where
  cfg : t.cfg = s.cfg
  mode : t.mode = s.mode
  ovr : t.ovr = s.ovr

theorem SameInputs.refl (s : State) : SameInputs s s := ⟨rfl, rfl, rfl⟩

theorem SameInputs.trans {s t u : State} (hst : SameInputs s t) (htu : SameInputs t u) : SameInputs s u :=
  ⟨htu.cfg.trans hst.cfg, htu.mode.trans hst.mode, htu.ovr.trans hst.ovr⟩

theorem SameInputs.params {s t : State} (h : SameInputs s t) : t.params = s.params :=
  congrArg AdmittedCfg.params h.cfg

/-- The plan that COMPUTE commits from `s`. -/
def computedPlan (s : State) : Plan :=
  planOf (pixelClock s.params s.mode) (rawDdr s.params s.mode) (resolvedDdr s.params (rawDdr s.params s.mode))
    (timing s.params (resolvedDdr s.params (rawDdr s.params s.mode)) s.ovr)

theorem SameInputs.computedPlan_eq {s t : State} (h : SameInputs s t) : computedPlan t = computedPlan s := by
  simp only [computedPlan, h.params, h.mode, h.ovr]

theorem plan_of_exec_compute {s t : State} (hmode : s.mode.valid = true) (hraw : rawDdr s.params s.mode ≠ 0)
    (h : exec .compute s = .next t) : t.plan = computedPlan s := by
  rw [exec_compute_of_valid hmode] at h
  cases h
  exact resolve_plan _ s hraw

/-! ### What leaves it alone -/

/-- The command is none of the three that write MODE or OVR. -/
def KeepsInputs (i : Instr) : Prop :=
  (∀ d f c l, i ≠ .setmode d f c l) ∧ (∀ q x, i ≠ .setovr q x) ∧ (∀ g, i ≠ .clrovr g)

theorem sameInputs_recordClamp (raw : Nat) (s : State) : SameInputs s (recordClamp raw s) := by
  rw [recordClamp]
  split <;> exact ⟨rfl, rfl, rfl⟩

theorem sameInputs_resolve (pclk raw : Nat) (s : State) : SameInputs s (resolve pclk raw s) := by
  rw [resolve]
  split
  · exact ⟨rfl, rfl, rfl⟩
  · exact (sameInputs_recordClamp raw s).trans ⟨rfl, rfl, rfl⟩

theorem CommandEffect.sameInputs {s t : State} {i : Instr} (h : CommandEffect s i t) (hi : KeepsInputs i) :
    SameInputs s t := by
  obtain ⟨hmode, hovr, hclr⟩ := hi
  cases h with
  | setmode => exact absurd rfl (hmode _ _ _ _)
  | setovr => exact absurd rfl (hovr _ _)
  | clrovr => exact absurd rfl (hclr _)
  | compute | calcddr => exact sameInputs_resolve _ _ s
  | pack =>
    obtain ⟨b, hb⟩ := recordOverflow_eq_withSticky s
    rw [hb]
    exact ⟨rfl, rfl, rfl⟩
  | write => rw [writeImages_eq]; exact ⟨rfl, rfl, rfl⟩
  | rejected | nop | setfld | clrstg | wrstg | rdres | rdstat | clrstat => exact ⟨rfl, rfl, rfl⟩

theorem sameInputs_execAll {is : List Instr} {s t : State} (his : ∀ i ∈ is, KeepsInputs i)
    (h : execAll is s = .next t) : SameInputs s t := by
  induction is generalizing s with
  | nil => cases h; exact .refl _
  | cons i is ih =>
    obtain ⟨hi, his⟩ := List.forall_mem_cons.1 his
    obtain ⟨u, hu⟩ := exec_total i s
    rw [execAll_cons hu] at h
    exact ((commandEffect_of_exec hu).sameInputs hi).trans (ih his h)

/-! ### BRINGUP (R104) -/

/-- The writes a command adds to the history. -/
theorem writes_of_exec {i : Instr} {s t : State} (h : exec i s = .next t) :
    t.writes = s.writes ++ issuedWrites s i := by
  have ht : Host.Outcome.next t = .next (t.withWrites (s.writes ++ issuedWrites s i)) :=
    h.symm.trans (exec_withWrites h s.writes)
  exact congrArg State.writes (Host.Outcome.next.inj ht)

/-- The four writes of the images packed from the plan that COMPUTE commits. -/
def bringupWrites (s : State) : List MmioWrite :=
  writeOrder.map fun r =>
    ⟨regOffset s.params r, (packImages s.params.fieldPolicy (computedPlan s).counts).get r⟩

theorem SameInputs.bringupWrites_eq {s t : State} (h : SameInputs s t) : bringupWrites t = bringupWrites s := by
  simp only [bringupWrites, h.params, h.computedPlan_eq]

theorem keepsInputs_bringup : ∀ i ∈ expand .bringup, KeepsInputs i := by
  simp [expand, KeepsInputs]

theorem exec_pack_of_valid {s : State} (h : s.plan.valid = true) :
    exec .pack s = .next ((recordOverflow s).withImages (packImages s.params.fieldPolicy s.plan.counts)) :=
  congrArg _ (if_pos h)

/-- The writes WRITE issues right after PACK: the images of the plan, at the registers' offsets. -/
theorem issuedWrites_write_of_exec_pack {s t : State} (hplan : s.plan.valid = true) (h : exec .pack s = .next t) :
    issuedWrites t .write = writeOrder.map fun r =>
      ⟨regOffset s.params r, (packImages s.params.fieldPolicy s.plan.counts).get r⟩ := by
  rw [exec_pack_of_valid hplan] at h
  obtain ⟨b, hb⟩ := recordOverflow_eq_withSticky s
  rw [hb] at h
  cases h
  rfl

theorem writes_of_bringup {s t : State} (hmode : s.mode.valid = true) (hraw : rawDdr s.params s.mode ≠ 0)
    (h : execAll (expand .bringup) s = .next t) : t.writes = s.writes ++ bringupWrites s := by
  obtain ⟨a, ha⟩ := exec_total .compute s
  obtain ⟨b, hb⟩ := exec_total .pack a
  have hplan := plan_of_exec_compute hmode hraw ha
  have hvalid : a.plan.valid = true := congrArg Plan.valid hplan
  have hparams : a.params = s.params := congrArg AdmittedCfg.params (commandEffect_of_exec ha).cfg_eq
  have hwrite : exec .write b = .next t := by
    obtain ⟨c, hc⟩ := exec_total .write b
    rw [expand, execAll_cons ha, execAll_cons hb, execAll_cons hc] at h
    exact hc.trans h
  calc t.writes
    _ = b.writes ++ issuedWrites b .write := writes_of_exec hwrite
    _ = s.writes ++ issuedWrites b .write := by
      simp only [writes_of_exec hb, writes_of_exec ha, issuedWrites, List.append_nil]
    _ = s.writes ++ bringupWrites s := by
      rw [issuedWrites_write_of_exec_pack hvalid hb, hplan, hparams, bringupWrites]

/-- Settles O59: the plan and the writes are functions of what the commands between leave alone. -/
theorem computeIsIdempotent : Obligations.ComputeIsIdempotent := by
  intro s t u v is hmode hraw his
  have hinputs {is₀ : List Instr} (his₀ : ∀ i ∈ is₀, KeepsInputs i) (ht : execAll is₀ s = .next t)
      (hu : execAll is t = .next u) : SameInputs s u :=
    (sameInputs_execAll his₀ ht).trans (sameInputs_execAll his hu)
  have hmode' (h : SameInputs s u) : u.mode.valid = true := h.mode ▸ hmode
  have hraw' (h : SameInputs s u) : rawDdr u.params u.mode ≠ 0 := by rwa [h.params, h.mode]
  refine ⟨fun ht hu hv => ?_, fun ht hu hv => ?_⟩
  · have h : SameInputs s u := hinputs (is₀ := [.compute]) (by simp [KeepsInputs]) (by rw [execAll_cons ht]; rfl) hu
    rw [plan_of_exec_compute (hmode' h) (hraw' h) hv, plan_of_exec_compute hmode hraw ht, h.computedPlan_eq]
  · have h : SameInputs s u := hinputs keepsInputs_bringup ht hu
    exact ⟨bringupWrites s, rfl, writes_of_bringup hmode hraw ht,
      h.bringupWrites_eq ▸ writes_of_bringup (hmode' h) (hraw' h) hv⟩

end Sys2Proof.Machine

/-! The committed values under the default parameters, in both period modes (42_timing.md R150 to R174, obligation O26):
the intervals and counts as plain formulas, each small enough for its field, so that the plan holds them whole. -/

namespace Sys2Proof.Machine

/-- The spec's default parameters with either period mode (R7, R151). -/
def defaultCfg (p : OpenParams) (m : PeriodMode) : Cfg := { Cfg.ofOpen p with periodMode := m }

/-! ### Ticks -/

theorem ceilDiv_mul_le {a b x : Nat} (ha : a ≤ b) : ceilDiv (x * a) b ≤ x := by
  rcases Nat.eq_zero_or_pos b with rfl | hb
  · simp [ceilDiv]
  · exact (ceilDiv_le_iff hb).2 (Nat.mul_le_mul_left x ha)

theorem roundDiv_le_ceilDiv {a b : Nat} (hb : 0 < b) : roundDiv a b ≤ ceilDiv a b :=
  Nat.div_le_div_right (by omega)

/-- At a frequency up to 4000 the period is at least one nanosecond, so that converting never enlarges. -/
theorem ticks_le (c : Cfg) {ddr : Nat} (h : ddr ≤ 4000) (m : RoundMode) (t : Nat) : ticks c ddr m t ≤ t := by
  cases hp : c.periodMode with
  | intPeriod => exact ticks_le_of_intPeriod hp ddr m t
  | exact =>
    have hceil : ceilDiv (t * ddr) byteNsNum ≤ t := ceilDiv_mul_le h
    cases m with
    | ceil => simpa only [ticks, hp] using hceil
    | nearest => simpa only [ticks, hp] using (roundDiv_le_ceilDiv (by decide)).trans hceil

theorem ticks_defaultCfg_ceil (p : OpenParams) (m : PeriodMode) (d t : Nat) :
    ticks (defaultCfg p m) d .ceil t = match m with
      | .intPeriod => (t + 4000 / d - 1) / (4000 / d)
      | .exact => (t * d + 3999) / 4000 := by
  cases m <;> rfl

theorem ticks_defaultCfg_nearest (p : OpenParams) (m : PeriodMode) (d t : Nat) :
    ticks (defaultCfg p m) d .nearest t = match m with
      | .intPeriod => (t + 4000 / d / 2) / (4000 / d)
      | .exact => (t * d + 2000) / 4000 := by
  cases m <;> rfl

/-! ### The intervals -/

theorem unitIntervals_zero {d : Nat} (h : 1 ≤ d) : unitIntervals 0 d = 0 := by
  rw [unitIntervals, ceilDiv]
  exact Nat.div_eq_of_lt (by omega)

theorem tHsPrep_eq (d : Nat) : tHsPrep d = 60 + (2000 + d - 1) / d := by
  simp only [tHsPrep, unitIntervals, ceilDiv, uiNsNum, Nat.reduceMul]

theorem tHsZero_eq (d : Nat) : tHsZero d = 170 + (5000 + d - 1) / d - tHsPrep d := by
  simp only [tHsZero, clamp0_eq_toNat, unitIntervals, ceilDiv, uiNsNum, Nat.reduceMul]
  omega

theorem tHsTrail_defaultCfg (p : OpenParams) (m : PeriodMode) (d : Nat) :
    tHsTrail (defaultCfg p m) d = max ((4000 + d - 1) / d) (tHsPrep d) + 30 := by
  simp only [tHsTrail, tHsPrep, defaultCfg, Cfg.ofOpen, unitIntervals, ceilDiv, uiNsNum, Nat.reduceMul]

/-- The parameterised intervals have no unit intervals by default. -/
theorem timingIntervals_defaultCfg (p : OpenParams) (m : PeriodMode) {d : Nat} (h : 1 ≤ d) :
    timingIntervals (defaultCfg p m) d =
      ⟨tHsPrep d, tHsZero d, tHsTrail (defaultCfg p m) d, 130, 60, 270, 90, 130⟩ := by
  simp [timingIntervals, tHsExit, tClkPrep, tClkZero, tClkTrail, tClkExit, clamp0, defaultCfg, Cfg.ofOpen,
    unitIntervals_zero h]

theorem timingIntervals_defaultCfg_get_le (p : OpenParams) (m : PeriodMode) (d : Nat) (q : Interval) :
    (timingIntervals (defaultCfg p m) d).get q ≤ 5170 :=
  timingIntervals_ofOpen_get_le p d q

/-! ### The counts -/

theorem intervalCount_eq_sub (c : Cfg) (d : Nat) (q : Interval) :
    intervalCount c d q = ticks c d (c.rm.get q) ((timingIntervals c d).get q) - c.bias.get q := by
  rw [intervalCount, clamp0_eq_toNat]
  omega

/-- The count of an interval (R163 to R170). -/
def intervalCountName : Interval → Count
  | .hsPrep => .hsPrep
  | .hsZero => .hsZero
  | .hsTrail => .hsTrail
  | .hsExit => .hsExit
  | .clkPrep => .clkPrep
  | .clkZero => .clkZero
  | .clkTrail => .clkTrail
  | .clkExit => .clkExit

/-- The final count of an interval whose ticks are `n` (R154, R203). -/
theorem timingCounts_get_of_ticks {c : Cfg} {d n : Nat} {i : Interval} (o : PerCount OvrEntry)
    (h : ticks c d (c.rm.get i) ((timingIntervals c d).get i) = n) :
    (timingCounts c d o).get (intervalCountName i) = override o (intervalCountName i) (n - c.bias.get i) := by
  rw [← h, ← intervalCount_eq_sub]
  cases i <;> rfl

theorem hs2LpCount_defaultCfg (p : OpenParams) (m : PeriodMode) (clkTrail clkExit lpDiv : Nat) :
    hs2LpCount (defaultCfg p m) clkTrail clkExit lpDiv = clkTrail + clkExit + lpDiv + 2 := by
  simp only [hs2LpCount, clamp0_eq_toNat, defaultCfg, Cfg.ofOpen]
  omega

theorem lp2HsCount_defaultCfg (p : OpenParams) (m : PeriodMode) (lpDiv clkPrep clkZero : Nat) :
    lp2HsCount (defaultCfg p m) lpDiv clkPrep clkZero = 4 * lpDiv + clkPrep + clkZero + 2 := by
  simp only [lp2HsCount, clamp0_eq_toNat, defaultCfg, Cfg.ofOpen]
  omega

theorem finalIntervalCount_defaultCfg_le (p : OpenParams) (m : PeriodMode) {d : Nat} (h : d ≤ 4000)
    (o : PerCount OvrEntry) (i : Interval) (q : Count) : finalIntervalCount (defaultCfg p m) d o i q ≤ 5170 := by
  refine override_le ?_ (by decide)
  rw [intervalCount_eq_sub]
  exact (Nat.sub_le _ _).trans ((ticks_le _ h _ _).trans (timingIntervals_defaultCfg_get_le p m d i))

theorem timingCounts_defaultCfg_clkHs2Lp (p : OpenParams) (m : PeriodMode) (d : Nat) (o : PerCount OvrEntry) :
    let n := timingCounts (defaultCfg p m) d o
    n.clkHs2Lp = override o .clkHs2Lp (n.clkTrail + n.clkExit + n.lpDiv + 2) := by
  simp only [timingCounts, hs2LpCount_defaultCfg]

theorem timingCounts_defaultCfg_clkLp2Hs (p : OpenParams) (m : PeriodMode) (d : Nat) (o : PerCount OvrEntry) :
    let n := timingCounts (defaultCfg p m) d o
    n.clkLp2Hs = override o .clkLp2Hs (4 * n.lpDiv + n.clkPrep + n.clkZero + 2) := by
  simp only [timingCounts, lp2HsCount_defaultCfg]

theorem timingCounts_defaultCfg_get_le (p : OpenParams) (m : PeriodMode) {d : Nat} (h : d ≤ 4000)
    (o : PerCount OvrEntry) (q : Count) : (timingCounts (defaultCfg p m) d o).get q ≤ 11362 := by
  have hdiv : (timingCounts (defaultCfg p m) d o).lpDiv ≤ 255 := finalLpDiv_le h o
  have hcount := finalIntervalCount_defaultCfg_le p m h o
  cases q with
  | lpDiv => exact hdiv.trans (by decide)
  | clkHs2Lp =>
    have htrail : (timingCounts (defaultCfg p m) d o).clkTrail ≤ 5170 := hcount .clkTrail .clkTrail
    have hexit : (timingCounts (defaultCfg p m) d o).clkExit ≤ 5170 := hcount .clkExit .clkExit
    exact (timingCounts_defaultCfg_clkHs2Lp p m d o).trans_le (override_le (by omega) (by decide))
  | clkLp2Hs =>
    have hprep : (timingCounts (defaultCfg p m) d o).clkPrep ≤ 5170 := hcount .clkPrep .clkPrep
    have hzero : (timingCounts (defaultCfg p m) d o).clkZero ≤ 5170 := hcount .clkZero .clkZero
    exact (timingCounts_defaultCfg_clkLp2Hs p m d o).trans_le (override_le (by omega) (by decide))
  | hsPrep | hsZero | hsTrail | hsExit | clkPrep | clkZero | clkTrail | clkExit =>
    exact (hcount _ _).trans (by decide)

/-! ### The plan -/

theorem map_store32_map_toNat {t : PerInterval Nat} (h : ∀ q, t.get q < 2 ^ 32) :
    (t.map store32).map BitVec.toNat = t := by
  have hq (q : Interval) : (store32 (t.get q)).toNat = t.get q := store32_of_lt (h q)
  simp only [PerInterval.map]
  congr 1
  exacts [hq .hsPrep, hq .hsZero, hq .hsTrail, hq .hsExit, hq .clkPrep, hq .clkZero, hq .clkTrail, hq .clkExit]

/-- The plan of a frequency up to 4000 holds its intervals whole. -/
theorem planOf_defaultCfg_intervals (p : OpenParams) (m : PeriodMode) (pclk raw d : Nat) (o : PerCount OvrEntry) :
    (planOf pclk raw d (timing (defaultCfg p m) d o)).intervals.map BitVec.toNat =
      timingIntervals (defaultCfg p m) d :=
  map_store32_map_toNat fun q => (timingIntervals_defaultCfg_get_le p m d q).trans_lt (by decide)

theorem planOf_defaultCfg_counts (p : OpenParams) (m : PeriodMode) (pclk raw : Nat) {d : Nat} (h : d ≤ 4000)
    (o : PerCount OvrEntry) (q : Count) :
    ((planOf pclk raw d (timing (defaultCfg p m) d o)).counts.get q).toNat =
      (timingCounts (defaultCfg p m) d o).get q := by
  simp only [planOf, timing, PerCount.get_map]
  exact store32_of_lt ((timingCounts_defaultCfg_get_le p m h o q).trans_lt (by decide))

/-- Settles O26: the committed values are those of `timing` at the resolved frequency, and every one fits. -/
theorem calcddrCommitsTheSpecCounts : Obligations.CalcddrCommitsTheSpecCounts := by
  intro s p m raw hparams hlo hhi
  have hraw : raw ≠ 0 := by omega
  refine ⟨_, exec_calcddr raw s, ?_⟩
  intro rounded d up near ovr hp hz ht c
  have hparams : s.params = defaultCfg p m := hparams
  have hd : resolvedDdr (defaultCfg p m) raw = d := resolvedDdr_eq_ite _ _
  have hplan : (resolve 0 raw s).plan = planOf 0 raw d (timing (defaultCfg p m) d s.ovr) := by
    rw [resolve_plan 0 s hraw, hparams, hd]
  have hdlo : 12 ≤ d := by
    rw [← hd, ← hparams]
    exact twelve_le_resolvedDdr s.cfg hraw
  have hdhi : d ≤ 4000 := by
    rw [← hd, ← hparams]
    exact resolvedDdr_le_4000 s.cfg raw
  have hintervals : timingIntervals (defaultCfg p m) d = ⟨hp, hz, ht, 130, 60, 270, 90, 130⟩ := by
    rw [timingIntervals_defaultCfg p m (by omega), tHsZero_eq, tHsTrail_defaultCfg, tHsPrep_eq]
  have hc (q : Count) : c q = (timingCounts (defaultCfg p m) d s.ovr).get q := by
    simp only [c, hplan]
    exact planOf_defaultCfg_counts p m 0 raw hdhi s.ovr q
  have hcount {i : Interval} {n : Nat} (h : ticks (defaultCfg p m) d ((defaultCfg p m).rm.get i)
      ((PerInterval.mk hp hz ht 130 60 270 90 130).get i) = n) :
      c (intervalCountName i) = ovr (intervalCountName i) (n - (defaultCfg p m).bias.get i) :=
    (hc _).trans (timingCounts_get_of_ticks s.ovr (hintervals ▸ h))
  have hup (t : Nat) : ticks (defaultCfg p m) d .ceil t = up t := ticks_defaultCfg_ceil p m d t
  have hnear (t : Nat) : ticks (defaultCfg p m) d .nearest t = near t := ticks_defaultCfg_nearest p m d t
  rw [hplan]
  refine ⟨rfl, store32_of_lt (by decide), store32_of_lt (by omega), planOf_ddr_toNat _ _ hdhi, store32_of_lt ?_,
    (planOf_defaultCfg_intervals ..).trans hintervals, hcount (i := .hsPrep) (hnear hp), hcount (i := .hsZero) (hup hz),
    hcount (i := .hsTrail) (hup ht), hcount (i := .hsExit) (hup 130), hcount (i := .clkPrep) (hnear 60),
    hcount (i := .clkZero) (hup 270), hcount (i := .clkTrail) (hup 90), hcount (i := .clkExit) (hup 130), hc .lpDiv,
    ?_, ?_⟩
  · exact (Nat.div_le_self _ _).trans_lt (by decide)
  · simp only [hc]
    exact timingCounts_defaultCfg_clkHs2Lp p m d s.ovr
  · simp only [hc]
    exact timingCounts_defaultCfg_clkLp2Hs p m d s.ovr

end Sys2Proof.Machine

/-! The timing calculator's formulas and ranges (42_timing.md): the intervals (obligations O21 to O24), the count of an
interval and the two prepare clamps (obligations O25 and O27), and the low-power divider (obligation O28). -/

namespace Sys2Proof.Machine

/-! ### The arithmetic -/

/-- A quotient below one half, and no other, rounds to 0. -/
theorem one_le_roundDiv_iff {a b : Nat} (hb : 0 < b) : 1 ≤ roundDiv a b ↔ b ≤ 2 * a := by
  rw [roundDiv, Nat.le_div_iff_mul_le hb]
  omega

theorem unitIntervals_le_iff {k d q : Nat} (hd : 1 ≤ d) : unitIntervals k d ≤ q ↔ k * 500 ≤ q * d := ceilDiv_le_iff hd

theorem lt_unitIntervals_iff {k d q : Nat} (hd : 1 ≤ d) : q < unitIntervals k d ↔ q * d < k * 500 := by
  rw [← not_le, unitIntervals_le_iff hd, not_le]

theorem le_unitIntervals_mul (k : Nat) {d : Nat} (hd : 1 ≤ d) : k * 500 ≤ unitIntervals k d * d :=
  (unitIntervals_le_iff hd).1 le_rfl

theorem unitIntervals_mono {k l : Nat} (h : k ≤ l) (d : Nat) : unitIntervals k d ≤ unitIntervals l d :=
  Nat.div_le_div_right (by simp only [uiNsNum]; omega)

/-! ### The intervals -/

/-- Settles O21: four unit intervals last at most 2000 ns, and at least 1. -/
theorem hsPrepInterval : Obligations.HsPrepInterval := by
  intro c o d hd
  have heq : (timing c d o).intervals.hsPrep = 60 + unitIntervals 4 d := rfl
  have hlo : 0 < unitIntervals 4 d := (lt_unitIntervals_iff hd).2 (by omega)
  have hhi : unitIntervals 4 d ≤ 4 * 500 := unitIntervals_le 4 d
  refine ⟨rfl, by omega, by omega, fun hfast => ?_, ?_⟩
  · have hone : unitIntervals 4 d ≤ 1 := (unitIntervals_le_iff hd).2 (by omega)
    omega
  · rintro rfl
    rfl

/-- Prepare's four unit intervals are at most zero's ten, so that the difference of R156 is at least `170 - 60`. -/
theorem tHsPrep_le (d : Nat) : tHsPrep d ≤ 60 + unitIntervals 10 d :=
  Nat.add_le_add_left (unitIntervals_mono (by decide) d) 60

theorem tHsZero_add_tHsPrep (d : Nat) : tHsZero d + tHsPrep d = 170 + unitIntervals 10 d := by
  have hle := tHsPrep_le d
  rw [tHsZero, clamp0_eq_toNat]
  omega

/-- Settles O22: what prepare takes is at most 60 ns and zero's own ten unit intervals. -/
theorem hsZeroIntervalNeverClamps : Obligations.HsZeroIntervalNeverClamps := by
  intro c o d _
  change (tHsZero d : Int) = 170 + (unitIntervals 10 d : Nat) - (tHsPrep d : Int) ∧ 110 ≤ tHsZero d
  have hsum := tHsZero_add_tHsPrep d
  have hle := tHsPrep_le d
  omega

/-- Eight unit intervals outlast four and 60 ns exactly at frequencies up to 33 (R157): from 34 on, four are at most
59 ns and eight at most twice that; up to 32 the slack exceeds what rounding up can add; 33 is evaluated. -/
theorem hsTrail_first_wins_iff {d : Nat} (hd : 1 ≤ d) : 60 + unitIntervals 4 d < unitIntervals 8 d ↔ d ≤ 33 := by
  constructor
  · contrapose!
    intro hfast
    have hfour : unitIntervals 4 d ≤ 59 := (unitIntervals_le_iff hd).2 (by omega)
    have hmul := le_unitIntervals_mul 4 hd
    have hdouble : unitIntervals 8 d ≤ 2 * unitIntervals 4 d := (unitIntervals_le_iff hd).2 (by linarith)
    omega
  · intro hslow
    obtain rfl | hslow := eq_or_lt_of_le hslow
    · decide
    · have hmul : unitIntervals 4 d * d ≤ 4 * 500 + d - 1 := Nat.div_mul_le_self _ _
      refine (lt_unitIntervals_iff hd).2 ?_
      rw [Nat.add_mul]
      omega

/-- Settles O23: an admitted configuration has `N_DIR = 1`. -/
theorem hsTrailInterval : Obligations.HsTrailInterval := by
  intro c o d hd
  have hformula : tHsTrail c.params d = max (unitIntervals (1 * 8) d) (60 + unitIntervals (1 * 4) d) + 30 := by
    rw [tHsTrail, c.nDir_eq]
  exact ⟨hformula, hsTrail_first_wins_iff hd⟩

/-- R160 in the natural numbers, where a difference below 0 is 0. -/
theorem tClkZero_eq_sub (c : Cfg) (d : Nat) :
    tClkZero c d = c.clkPzBase + unitIntervals c.clkPzUi d - tClkPrep c d := by
  rw [tClkZero, clamp0_eq_toNat]
  omega

/-- Settles O24: all but the clock-lane zero interval are their formulas, and that one is a difference. -/
theorem parameterisedIntervals : Obligations.ParameterisedIntervals := by
  intro c o d _ ui i
  have hzero : i.clkZero = c.clkPzBase + ui c.clkPzUi - i.clkPrep := tClkZero_eq_sub c d
  exact ⟨rfl, rfl, fun hle => by omega, fun hlt => by omega, rfl, rfl⟩

/-! ### The counts -/

/-- Settles O25: `n` is the tick count in each of the four combinations of modes. -/
theorem intervalCountFormula : Obligations.IntervalCountFormula := by
  intro c d q t n
  have hn : ticks c d (c.rm.get q) t = n := by
    simp only [n, ticks]
    cases c.periodMode <;> cases c.rm.get q <;> rfl
  have hcount : intervalCount c d q = n - c.bias.get q := hn ▸ intervalCount_eq_sub c d q
  omega

/-- To nearest, an interval of at least half the exact byte-clock period is at least one tick, in both period modes. -/
theorem one_le_ticks_nearest (c : Cfg) {d t : Nat} (hlo : 1 ≤ d) (hhi : d ≤ 4000) (ht : 4000 ≤ 2 * (t * d)) :
    1 ≤ ticks c d .nearest t := by
  cases hp : c.periodMode with
  | intPeriod =>
    have hperiod : 4000 / d ≤ 2 * t := Nat.div_le_of_le_mul (by linarith)
    simpa only [ticks, hp, byteNsNum] using (one_le_roundDiv_iff (Nat.div_pos hhi hlo)).2 hperiod
  | exact => simpa only [ticks, hp, byteNsNum] using (one_le_roundDiv_iff (by decide)).2 ht

/-- Prepare's four unit intervals alone are half a byte-clock period (R163). -/
theorem one_le_ticks_hsPrep (c : Cfg) {d : Nat} (hlo : 1 ≤ d) (hhi : d ≤ 4000) :
    1 ≤ ticks c d .nearest (timingIntervals c d).hsPrep := by
  have hhalf := le_unitIntervals_mul 4 hlo
  refine one_le_ticks_nearest c hlo hhi ?_
  change 4000 ≤ 2 * ((60 + unitIntervals 4 d) * d)
  linarith

theorem ticks_clkPrep_defaultCfg (p : OpenParams) {d : Nat} (h : 1 ≤ d) :
    ticks (defaultCfg p .intPeriod) d .nearest (timingIntervals (defaultCfg p .intPeriod) d).clkPrep =
      roundDiv 60 (4000 / d) := by
  rw [timingIntervals_defaultCfg p .intPeriod h]
  rfl

/-- The clock-lane prepare interval of 60 ns is no tick where the period is more than twice that (R167). -/
theorem ticks_clkPrep_defaultCfg_eq_zero_iff (p : OpenParams) {d : Nat} (hlo : 1 ≤ d) (hhi : d ≤ 4000) :
    ticks (defaultCfg p .intPeriod) d .nearest (timingIntervals (defaultCfg p .intPeriod) d).clkPrep = 0 ↔
      121 ≤ 4000 / d := by
  have hone := one_le_roundDiv_iff (a := 60) (Nat.div_pos hhi hlo)
  rw [ticks_clkPrep_defaultCfg p hlo]
  omega

theorem period_ge_121_iff {d : Nat} (h : 1 ≤ d) : 121 ≤ 4000 / d ↔ d ≤ 33 := by
  rw [Nat.le_div_iff_mul_le h]
  omega

/-- Settles O27: prepare is long enough on the data lanes; on the clock lane its 60 ns are compared with the period. -/
theorem prepareCountClamps : Obligations.PrepareCountClamps := by
  refine ⟨fun c d hlo hhi => one_le_ticks_hsPrep c hlo hhi, fun c d hdefault hlo hhi => ?_⟩
  obtain ⟨p, rfl⟩ : ∃ p, c = defaultCfg p .intPeriod := ⟨_, hdefault⟩
  have hzero := ticks_clkPrep_defaultCfg_eq_zero_iff p hlo hhi
  have hperiod := period_ge_121_iff hlo
  refine ⟨hzero, hperiod, fun hslow => ?_⟩
  have hticks := hzero.2 (hperiod.2 hslow)
  rw [intervalCount_eq_sub]
  exact Nat.sub_eq_zero_of_le (hticks.trans_le (Nat.zero_le _))

theorem timing_lpDiv_of_disabled (c : Cfg) {o : PerCount OvrEntry} (d : Nat) (h : o.lpDiv.en = false) :
    (timing c d o).counts.lpDiv = (d + 48 - 1) / 48 := by
  simp only [timing, timingCounts, finalLpDiv, override, PerCount.get, h, Bool.false_eq_true, if_false, lpDivCount,
    ceilDiv, lpdivDen]

/-- Settles O28: the range of the formula over 1 to 4000. -/
theorem lpDivFormulaAndRange : Obligations.LpDivFormulaAndRange := by
  intro c o d hen hlo hhi
  have hformula := timing_lpDiv_of_disabled c d hen
  refine ⟨hformula, ?_⟩
  omega

end Sys2Proof.Machine

/-! Overrides (43_override.md): CLROVR (obligation O31), the final counts (obligations O29 and O32), what a commit
records of them (obligation O33), and that an overridden count always fits its byte (obligation O35). -/

namespace Sys2Proof.Machine

/-! ### CLROVR (obligation O31) -/

@[simp] theorem allCounts_get {α : Type} (a : α) (q : Count) : (allCounts a).get q = a := by
  cases q <;> rfl

theorem exec_clrovr_one (q : Count) (s : State) :
    exec (.clrovr (.one q)) s = .next (s.withOvr (s.ovr.set q ⟨false, 0#8⟩)) := rfl

theorem exec_clrovr_all (s : State) : exec (.clrovr .all) s = .next (s.withOvr (allCounts ⟨false, 0#8⟩)) := rfl

/-- Settles O31. -/
theorem clrovrDisablesEntries : Obligations.ClrovrDisablesEntries := by
  refine ⟨fun p hp => ?_, decodeOfEncode (.clrovr .all) rfl, fun w hop hbad => ?_, fun q s => ?_, fun s => ?_⟩
  · rw [countSelectors_eq] at hp
    obtain ⟨q, -, rfl⟩ := List.mem_map.1 hp
    exact decodeOfEncode (.clrovr (.one q)) rfl
  · refine rejects_of_not_requireHolds fun h => ?_
    simp only [RequireHolds, List.mem_cons, List.not_mem_nil, or_false] at h
    omega
  · exact ⟨_, exec_clrovr_one q s, (PerCount.get_set ..).trans (if_pos rfl),
      fun q' hne => (PerCount.get_set ..).trans (if_neg hne)⟩
  · exact ⟨_, exec_clrovr_all s, allCounts_get _⟩

/-! ### The final counts (obligations O29 and O32) -/

theorem override_of_enabled {o : PerCount OvrEntry} {q : Count} (h : (o.get q).en = true) (v : Nat) :
    override o q v = (o.get q).val.toNat :=
  if_pos h

theorem override_of_disabled {o : PerCount OvrEntry} {q : Count} (h : (o.get q).en = false) (v : Nat) :
    override o q v = v :=
  if_neg (Bool.eq_false_iff.1 h)

/-- Each of the eleven counts passes through `Ovr` last (R174). -/
theorem timingCounts_get_eq_override (c : Cfg) (d : Nat) (o : PerCount OvrEntry) (q : Count) :
    ∃ v : Nat, (timingCounts c d o).get q = override o q v := by
  cases q <;> exact ⟨_, rfl⟩

theorem timingCounts_get_of_enabled (c : Cfg) (d : Nat) {o : PerCount OvrEntry} {q : Count}
    (h : (o.get q).en = true) : (timingCounts c d o).get q = (o.get q).val.toNat := by
  obtain ⟨v, hv⟩ := timingCounts_get_eq_override c d o q
  rw [hv, override_of_enabled h]

/-- The sum of R172 has no negative term, so its clamp never fires. -/
theorem hs2LpCount_eq (c : Cfg) (clkTrail clkExit lpDiv : Nat) :
    hs2LpCount c clkTrail clkExit lpDiv = clkTrail + clkExit + c.kHl * lpDiv + c.eHl := by
  rw [hs2LpCount, clamp0_eq_toNat]
  exact Int.toNat_natCast _

/-- The sum of R173 has no negative term, so its clamp never fires. -/
theorem lp2HsCount_eq (c : Cfg) (lpDiv clkPrep clkZero : Nat) :
    lp2HsCount c lpDiv clkPrep clkZero = c.kLh * lpDiv + clkPrep + clkZero + c.eLh := by
  rw [lp2HsCount, clamp0_eq_toNat]
  exact Int.toNat_natCast _

theorem timingCounts_clkHs2Lp_of_disabled (c : Cfg) (d : Nat) {o : PerCount OvrEntry} (h : o.clkHs2Lp.en = false) :
    let n := timingCounts c d o
    n.clkHs2Lp = n.clkTrail + n.clkExit + c.kHl * n.lpDiv + c.eHl :=
  (override_of_disabled (q := .clkHs2Lp) h _).trans (hs2LpCount_eq ..)

theorem timingCounts_clkLp2Hs_of_disabled (c : Cfg) (d : Nat) {o : PerCount OvrEntry} (h : o.clkLp2Hs.en = false) :
    let n := timingCounts c d o
    n.clkLp2Hs = c.kLh * n.lpDiv + n.clkPrep + n.clkZero + c.eLh :=
  (override_of_disabled (q := .clkLp2Hs) h _).trans (lp2HsCount_eq ..)

/-- Settles O29. -/
theorem switchCountersUseFinalCounts : Obligations.SwitchCountersUseFinalCounts :=
  fun c _ d => ⟨timingCounts_get_of_enabled c d (q := .clkHs2Lp), timingCounts_clkHs2Lp_of_disabled c d,
    timingCounts_get_of_enabled c d (q := .clkLp2Hs), timingCounts_clkLp2Hs_of_disabled c d⟩

/-- The two plans agree on everything that R203 says no override changes. -/
structure Plan.SameTiming (p p' : Plan) : Prop where
  intervals : p'.intervals = p.intervals
  ddr : p'.ddr = p.ddr
  bp : p'.bp = p.bp
  rawDdr : p'.rawDdr = p.rawDdr

/-- Of the parts of a plan, `Timing` computes only the counts and `ovr_used` from the overrides. -/
theorem sameTiming_planOf (c : Cfg) (pclk raw d : Nat) (o o' : PerCount OvrEntry) :
    (planOf pclk raw d (timing c d o)).SameTiming (planOf pclk raw d (timing c d o')) :=
  ⟨rfl, rfl, rfl, rfl⟩

theorem sameTiming_raiseErr (e : ErrBit) (s : State) (o : PerCount OvrEntry) :
    (raiseErr e s).plan.SameTiming (raiseErr e (s.withOvr o)).plan :=
  ⟨rfl, rfl, rfl, rfl⟩

theorem sameTiming_resolve (pclk raw : Nat) (s : State) (o : PerCount OvrEntry) :
    (resolve pclk raw s).plan.SameTiming (resolve pclk raw (s.withOvr o)).plan := by
  by_cases hraw : raw = 0
  · rw [hraw, resolve_zero, resolve_zero]
    exact sameTiming_raiseErr .ddrZero s o
  · rw [resolve_plan pclk s hraw, resolve_plan pclk (s.withOvr o) hraw]
    exact sameTiming_planOf ..

theorem exec_compute_of_invalid {s : State} (h : ¬ s.mode.valid = true) :
    exec .compute s = .next (raiseErr .noMode s) :=
  congrArg _ (if_neg h)

theorem sameTiming_exec_compute {s t t' : State} {o : PerCount OvrEntry} (h : exec .compute s = .next t)
    (h' : exec .compute (s.withOvr o) = .next t') : t.plan.SameTiming t'.plan := by
  by_cases hmode : s.mode.valid = true
  · rw [exec_compute_of_valid hmode] at h
    rw [exec_compute_of_valid (s := s.withOvr o) hmode] at h'
    cases h
    cases h'
    exact sameTiming_resolve _ _ s o
  · rw [exec_compute_of_invalid hmode] at h
    rw [exec_compute_of_invalid (s := s.withOvr o) hmode] at h'
    cases h
    cases h'
    exact sameTiming_raiseErr .noMode s o

theorem sameTiming_exec_calcddr {s t t' : State} {o : PerCount OvrEntry} {raw : Nat}
    (h : exec (.calcddr raw) s = .next t) (h' : exec (.calcddr raw) (s.withOvr o) = .next t') :
    t.plan.SameTiming t'.plan := by
  rw [exec_calcddr] at h h'
  cases h
  cases h'
  exact sameTiming_resolve 0 raw s o

/-- Settles O32: `Ovr` comes last for each count, and nothing else of a plan reads the overrides. -/
theorem overrideReplacesTheFinalCount : Obligations.OverrideReplacesTheFinalCount := by
  refine ⟨fun c d o q hen => timingCounts_get_of_enabled c d hen, fun s t t' o i hi h h' => ?_⟩
  have hsame : t.plan.SameTiming t'.plan := by
    rcases hi with rfl | ⟨raw, rfl⟩
    · exact sameTiming_exec_compute h h'
    · exact sameTiming_exec_calcddr h h'
  exact ⟨hsame.intervals, hsame.ddr, hsame.bp, hsame.rawDdr⟩

/-! ### `PLAN.ovr_used` (obligation O33) -/

theorem mem_allCountNames (q : Count) : q ∈ allCountNames := by
  cases q <;> decide

theorem PerCount.any_iff {α : Type} {f : α → Bool} {p : PerCount α} :
    p.any f = true ↔ ∃ q : Count, f (p.get q) = true := by
  simp only [PerCount.any, List.any_eq_true, mem_allCountNames, true_and]

theorem anyOverride_iff {o : PerCount OvrEntry} : anyOverride o = true ↔ ∃ q : Count, (o.get q).en = true :=
  PerCount.any_iff

/-- The status word's bit 11 mirrors `PLAN.ovr_used` (R45). -/
theorem statusWord_bit11 (s : State) : (statusWord s).getLsbD 11 = s.plan.ovrUsed := by
  simp only [statusWord, BitVec.getLsbD_append]
  simp

/-- Settles O33. -/
theorem ovrUsedTellsOverrides : Obligations.OvrUsedTellsOverrides := by
  intro s t i hi h
  have hcommit : ∃ raw : Nat, raw ≠ 0 ∧
      (i = .calcddr raw ∨ (i = .compute ∧ s.mode.valid = true ∧ rawDdr s.params s.mode = raw)) := by
    rcases hi with ⟨rfl, hmode, hraw⟩ | ⟨raw, rfl, hraw⟩
    · exact ⟨_, hraw, .inr ⟨rfl, hmode, rfl⟩⟩
    · exact ⟨raw, hraw, .inl rfl⟩
  obtain ⟨raw, hraw, hi⟩ := hcommit
  obtain ⟨pclk, hexec⟩ := exec_eq_resolve hi
  obtain rfl : resolve pclk raw s = t := Host.Outcome.next.inj (hexec.symm.trans h)
  have hused : (resolve pclk raw s).plan.ovrUsed = anyOverride s.ovr :=
    congrArg Plan.ovrUsed (resolve_plan pclk s hraw)
  exact ⟨by rw [hused, anyOverride_iff], statusWord_bit11 _⟩

/-! ### Overridden counts fit their bytes (obligation O35) -/

theorem anyOverflow_eq_false {n : PerCount Word} (h : ∀ q : Count, (n.get q).toNat ≤ 255) : anyOverflow n = false := by
  refine Bool.eq_false_iff.2 fun hany => ?_
  obtain ⟨q, hq⟩ := PerCount.any_iff.1 hany
  exact absurd (of_decide_eq_true hq) (Nat.not_lt.2 (h q))

/-- A plan holds the byte of an enabled override whole. -/
theorem planOf_counts_of_enabled (c : Cfg) (pclk raw d : Nat) {o : PerCount OvrEntry} {q : Count}
    (h : (o.get q).en = true) :
    ((planOf pclk raw d (timing c d o)).counts.get q).toNat = (o.get q).val.toNat := by
  have hbyte := (o.get q).val.isLt
  simp only [planOf, timing, PerCount.get_map, timingCounts_get_of_enabled c d h]
  exact store32_of_lt (by omega)

theorem recordOverflow_of_le {s : State} (h : ∀ q : Count, (s.plan.counts.get q).toNat ≤ 255) :
    recordOverflow s = s :=
  if_neg (Bool.eq_false_iff.1 (anyOverflow_eq_false h))

/-- Settles O35: every count of the committed plan is a byte. -/
theorem overriddenCountsNeverOverflow : Obligations.OverriddenCountsNeverOverflow := by
  intro s t u raw hraw hen hcalc hpack
  rw [exec_calcddr] at hcalc
  cases hcalc
  have hplan := resolve_plan 0 s hraw
  have hvalid : (resolve 0 raw s).plan.valid = true := congrArg Plan.valid hplan
  have hfits (q : Count) : ((resolve 0 raw s).plan.counts.get q).toNat ≤ 255 := by
    rw [hplan, planOf_counts_of_enabled _ _ _ _ (hen q)]
    exact Nat.le_of_lt_succ (s.ovr.get q).val.isLt
  rw [exec_pack_of_valid hvalid, recordOverflow_of_le hfits] at hpack
  cases hpack
  exact ⟨rfl, rfl⟩

end Sys2Proof.Machine

/-! The packer and the MMIO writes (44_packer.md): the packed word (obligation O36), PACK (obligation O37), WRITE
(obligation O38), the staging word (obligations O40 and O41) and WRSTG (obligation O42). -/

namespace Sys2Proof.Machine

/-! ### The packed word (obligation O36) -/

theorem fld_eq_ite (p : FieldPolicy) (v : Nat) : fld p v = if p = .truncate then v % 256 else min v 255 := by
  cases p <;> rfl

theorem fld_of_le (p : FieldPolicy) {v : Nat} (h : v ≤ 255) : fld p v = v := by
  cases p with
  | truncate => exact Nat.mod_eq_of_lt (Nat.lt_succ_of_le h)
  | saturate => exact Nat.min_eq_left h

theorem toNat_ofNat_fld (p : FieldPolicy) (v : Nat) : (BitVec.ofNat 8 (fld p v)).toNat = fld p v :=
  Nat.mod_eq_of_lt (Nat.lt_succ_of_le (fld_le p v))

theorem toNat_pack4 (p : FieldPolicy) (b0 b1 b2 b3 : Nat) :
    (pack4 p b0 b1 b2 b3).toNat = fld p b0 + fld p b1 * 2 ^ 8 + fld p b2 * 2 ^ 16 + fld p b3 * 2 ^ 24 := by
  simp only [pack4, toNat_append_eq_add, toNat_ofNat_fld]
  omega

/-- No cut value reaches the next byte, so each byte of the sum is one of them. -/
theorem toNat_extract_pack4 (p : FieldPolicy) (b : Fin 4 → Nat) (k : Fin 4) :
    ((pack4 p (b 0) (b 1) (b 2) (b 3)).extractLsb' (8 * k.val) 8).toNat = fld p (b k) := by
  have h0 := fld_le p (b 0)
  have h1 := fld_le p (b 1)
  have h2 := fld_le p (b 2)
  have h3 := fld_le p (b 3)
  rw [toNat_extractLsb'_eq_mod, toNat_pack4]
  match k with
  | 0 | 1 | 2 | 3 => simp only [Fin.coe_ofNat_eq_mod, Nat.reduceMod, Nat.reduceMul]; omega

/-- Settles O36. -/
theorem packedFieldsAreIndependent : Obligations.PackedFieldsAreIndependent := by
  intro p b
  simp only [← fld_eq_ite]
  exact ⟨toNat_pack4 p _ _ _ _, toNat_extract_pack4 p b, fun _ => fld_of_le p⟩

/-! ### The words of the commands that take no operand -/

/-- R106: with the opcode of a command that takes no operand, every word but the one with `SEL` and `IMM` 0 is
rejected. -/
theorem rejects_of_ne_plain {op : Byte} {w : Word} (hplain : op.toNat ∈ [0x00, 0x02, 0x06, 0x07, 0x09, 0x0C])
    (hop : opNat w = op.toNat) (hne : w ≠ packFields op 0#8 0#16) : Rejects w := by
  refine rejects_of_not_requireHolds fun h => hne ?_
  have hzero : selNat w = 0 ∧ immNat w = 0 := by
    simp only [RequireHolds, List.mem_cons, List.not_mem_nil, or_false] at h hplain
    omega
  apply eq_of_fields
  · rw [hop, opNat_eq_opField, opField_packFields]
  · rw [hzero.1, selNat_eq_selField, selField_packFields]
    rfl
  · rw [hzero.2, immNat_eq_immField, immField_packFields]
    rfl

/-! ### PACK (obligation O37) -/

theorem exec_pack_of_invalid {s : State} (h : s.plan.valid = false) : exec .pack s = .next (raiseErr .noPlan s) :=
  congrArg _ (if_neg (Bool.eq_false_iff.1 h))

theorem anyOverflow_iff {n : PerCount Word} : anyOverflow n = true ↔ ∃ q : Count, 255 < (n.get q).toNat := by
  simp only [anyOverflow, PerCount.any_iff, overflows, decide_eq_true_eq, gt_iff_lt]

theorem recordOverflow_of_lt {s : State} (h : ∃ q : Count, 255 < (s.plan.counts.get q).toNat) :
    recordOverflow s = raiseErr .fieldOvf s :=
  if_pos (anyOverflow_iff.2 h)

/-- Settles O37. -/
theorem packBuildsTheImages : Obligations.PackBuildsTheImages := by
  refine ⟨decodeOfEncode .pack rfl, fun _ hop hne => rejects_of_ne_plain (op := 0x06#8) (by decide) hop hne,
    fun s hvalid => exec_pack_of_invalid hvalid, fun s hvalid => ⟨fun hfits => ?_, fun hover => ?_⟩⟩
  · rw [exec_pack_of_valid hvalid, recordOverflow_of_le hfits]
    rfl
  · rw [exec_pack_of_valid hvalid, recordOverflow_of_lt hover]
    rfl

/-! ### WRITE (obligation O38) -/

/-- Settles O38. -/
theorem writeSendsTheImagesInOrder : Obligations.WriteSendsTheImagesInOrder :=
  ⟨decodeOfEncode .write rfl, fun _ hop hne => rejects_of_ne_plain (op := 0x07#8) (by decide) hop hne,
    fun s himg => exec_write_of_invalid (Bool.eq_false_iff.1 himg),
    fun s himg => (exec_write_of_valid himg).trans (congrArg _ (writeImages_spec s))⟩

/-! ### The staging word (obligations O40 and O41) -/

theorem encode_setfld_toNat (k v : Byte) :
    encode (.setfld k.toNat v) = (0x08#8 ++ k ++ 0#8 ++ v : BitVec 32) := by
  have hsel : (Instr.setfld k.toNat v).selBits = k := ofNat_eq_of_eq_toNat rfl
  rw [append_bytes_eq_packFields, encode, hsel]
  rfl

/-- Settles O40. -/
theorem setfldReplacesOneByte : Obligations.SetfldReplacesOneByte := by
  refine ⟨fun k v hk => decode_of_encode_eq (decide_eq_true hk) (encode_setfld_toNat k v), fun w hop hbad => ?_,
    fun s k v hk => ⟨_, exec_setfld k v s, ?_, fun j hj hne => ?_⟩⟩
  · refine rejects_of_not_requireHolds fun h => ?_
    simp only [RequireHolds, List.mem_cons, List.not_mem_nil, or_false] at h
    omega
  · exact (byteField_setByteField s.stg (Nat.lt_succ_of_le hk) v).trans (if_pos rfl)
  · exact (byteField_setByteField s.stg (Nat.lt_succ_of_le hj) v).trans (if_neg hne)

theorem exec_clrstg (s : State) : exec .clrstg s = .next (s.withStg 0#32) := rfl

/-- Settles O41. -/
theorem clrstgClearsTheStagingWord : Obligations.ClrstgClearsTheStagingWord :=
  ⟨decodeOfEncode .clrstg rfl, fun _ hop hne => rejects_of_ne_plain (op := 0x09#8) (by decide) hop hne, exec_clrstg⟩

/-! ### WRSTG (obligation O42) -/

/-- Settles O42. -/
theorem wrstgWritesTheStagingWord : Obligations.WrstgWritesTheStagingWord := by
  refine ⟨fun off => decodeOfEncode (.wrstg off) rfl, fun w hop hsel => ?_,
    fun s off hoff => exec_wrstg_of_misaligned hoff, fun s off hoff => exec_wrstg_of_aligned hoff⟩
  refine rejects_of_not_requireHolds fun h => ?_
  simp only [RequireHolds, List.mem_cons, List.not_mem_nil, or_false] at h
  omega

end Sys2Proof.Machine

/-! Read-back and status (45_status.md): NOP (obligation O45), RDSTAT (obligation O47) and CLRSTAT (obligation O48). -/

namespace Sys2Proof.Machine

/-! ### NOP (obligation O45) -/

theorem exec_nop (s : State) : exec .nop s = .next s := rfl

/-- Settles O45. -/
theorem nopChangesNothing : Obligations.NopChangesNothing :=
  ⟨decodeOfEncode .nop rfl, fun _ hop hne => rejects_of_ne_plain (op := 0x00#8) (by decide) hop hne, exec_nop⟩

/-! ### RDSTAT (obligation O47) -/

/-- The mirrors of R45 stand above the sticky bits, each at its own power of two, so the word is their sum. -/
theorem toNat_statusWord (s : State) :
    (statusWord s).toNat = s.sticky.toNat + s.mode.valid.toNat * 2 ^ 8 + s.plan.valid.toNat * 2 ^ 9 +
      s.imgValid.toNat * 2 ^ 10 + s.plan.ovrUsed.toNat * 2 ^ 11 := by
  simp only [statusWord, toNat_append_eq_add, BitVec.toNat_ofBool, BitVec.toNat_ofNat]
  omega

theorem exec_rdstat (s : State) : exec .rdstat s = .next (s.withResult (statusWord s)) := rfl

/-- Settles O47. -/
theorem rdstatReadsTheStatus : Obligations.RdstatReadsTheStatus :=
  ⟨decodeOfEncode .rdstat rfl, fun _ hop hne => rejects_of_ne_plain (op := 0x0C#8) (by decide) hop hne,
    fun s => ⟨statusWord s, exec_rdstat s, toNat_statusWord s⟩⟩

/-! ### CLRSTAT (obligation O48) -/

/-- Write-1-to-clear, bit by bit (R46, R263). -/
theorem getLsbD_clearSticky (st m : Byte) {k : Nat} (hk : k < 8) :
    (clearSticky st m).getLsbD k = (st.getLsbD k && !m.getLsbD k) := by
  simp only [clearSticky, BitVec.getLsbD_and, BitVec.getLsbD_not, hk, decide_true, Bool.true_and]

theorem exec_clrstat (m : Byte) (s : State) :
    exec (.clrstat m) s = .next (s.withSticky (clearSticky s.sticky m)) := rfl

/-- Settles O48. -/
theorem clrstatClearsTheMaskBits : Obligations.ClrstatClearsTheMaskBits := by
  refine ⟨fun m => ?_, fun w hop hbad => ?_, fun s m => ?_⟩
  · exact decode_of_encode_eq rfl (append_bytes_eq_packFields 0x0D#8 0#8 0#8 m).symm
  · refine rejects_of_not_requireHolds fun h => ?_
    simp only [RequireHolds, List.mem_cons, List.not_mem_nil, or_false] at h
    omega
  · exact ⟨clearSticky s.sticky m, exec_clrstat m s, fun _ => getLsbD_clearSticky s.sticky m⟩

end Sys2Proof.Machine

/-! The error model (60_exceptions.md): the rejected word (obligation O8), the errors of COMPUTE and CALCDDR (obligations
O14 and O15), what a command does to the sticky bits (obligations O49 and O51), and that no event stops the block
(obligation O12). -/

namespace Sys2Proof.Machine

/-! ### A rejected word (obligation O8) -/

/-- Settles O8. -/
theorem illegalWordSetsIllegalOnly : Obligations.IllegalWordSetsIllegalOnly :=
  fun _ _ _ hport hreq =>
    have hw := rejects_of_not_requireHolds hreq
    ⟨hw, step_of_rejects hport hw⟩

/-! ### No mode, and frequency 0 (obligations O14 and O15) -/

/-- Settles O14. -/
theorem computeWithoutModeIsRejected : Obligations.ComputeWithoutModeIsRejected :=
  fun _ hmode => exec_compute_of_invalid (Bool.eq_false_iff.1 hmode)

/-- R285: a divider above the reference gives pixel clock 0, and so frequency 0. -/
theorem rawDdr_of_refMhz_lt {c : Cfg} {m : Mode} (h : c.refMhz < m.pclkDiv.toNat + 1) : rawDdr c m = 0 := by
  have hpclk : pixelClock c m = 0 := Nat.div_eq_of_lt h
  simp only [rawDdr, hpclk, Nat.zero_mul, Nat.zero_div]

theorem exec_compute_of_rawDdr_zero {s : State} (hmode : s.mode.valid = true) (hraw : rawDdr s.params s.mode = 0) :
    exec .compute s = .next (raiseErr .ddrZero s) := by
  rw [exec_compute_of_valid hmode, hraw, resolve_zero]

/-- Settles O15: each of the three causes is a resolution of frequency 0. -/
theorem zeroFrequencyIsRejected : Obligations.ZeroFrequencyIsRejected :=
  ⟨fun s => congrArg Host.Outcome.next (resolve_zero 0 s),
    fun _ hmode hraw => exec_compute_of_rawDdr_zero hmode hraw,
    fun _ hmode hdiv => exec_compute_of_rawDdr_zero hmode (rawDdr_of_refMhz_lt hdiv)⟩

/-! ### The bits a command sets (obligations O49 and O51) -/

/-- Settles O49: of the ways a command treats the sticky bits, clearing them is CLRSTAT's alone. -/
theorem oneErrorBitPerCommand : Obligations.OneErrorBitPerCommand :=
  fun _ _ _ hi hexec =>
    (commandEffect_of_exec hexec).sticky_cases.resolve_left fun ⟨m, hm, _⟩ => hi m hm

theorem ErrBit.getLsbD_mask (e e' : ErrBit) : e.mask.getLsbD e'.code = decide (e = e') := by
  cases e <;> cases e' <;> rfl

/-- Raising an error sets its own bit and no other (R44, R290). -/
theorem getLsbD_setSticky (st : Byte) (e e' : ErrBit) :
    (setSticky st e).getLsbD e'.code = (st.getLsbD e'.code || decide (e = e')) := by
  rw [setSticky, BitVec.getLsbD_or, ErrBit.getLsbD_mask]

/-- No rejecting bit is set in `st'` that is not set in `st`. -/
def NoNewRejection (st st' : Byte) : Prop :=
  ∀ e : ErrBit, e.rejecting = true → st'.getLsbD e.code = true → st.getLsbD e.code = true

theorem NoNewRejection.refl (st : Byte) : NoNewRejection st st := fun _ _ hset => hset

theorem noNewRejection_clearSticky (st m : Byte) : NoNewRejection st (clearSticky st m) := by
  intro e _ hset
  rw [clearSticky, BitVec.getLsbD_and, Bool.and_eq_true] at hset
  exact hset.1

/-- An error that only records sets no rejecting bit (R280). -/
theorem noNewRejection_setSticky {e : ErrBit} (he : e.rejecting = false) (st : Byte) :
    NoNewRejection st (setSticky st e) := by
  intro e' he' hset
  have hne : e ≠ e' := by
    rintro rfl
    exact absurd he' (Bool.eq_false_iff.1 he)
  simpa [getLsbD_setSticky, hne] using hset

theorem noNewRejection_recordClamp (raw : Nat) (s : State) : NoNewRejection s.sticky (recordClamp raw s).sticky := by
  rw [recordClamp]
  split
  · exact noNewRejection_setSticky (e := .cfgErr) rfl s.sticky
  · exact .refl s.sticky

theorem noNewRejection_recordOverflow (s : State) : NoNewRejection s.sticky (recordOverflow s).sticky := by
  rw [recordOverflow]
  split
  · exact noNewRejection_setSticky (e := .fieldOvf) rfl s.sticky
  · exact .refl s.sticky

/-- A command raises an error and does nothing else, or sets no rejecting bit (R280). -/
theorem CommandEffect.rejects_or_noNewRejection {s t : State} {i : Instr} (h : CommandEffect s i t) :
    (∃ e : ErrBit, t = raiseErr e s) ∨ NoNewRejection s.sticky t.sticky := by
  cases h with
  | rejected => exact .inl ⟨_, rfl⟩
  | compute _ hraw | calcddr hraw =>
    rw [resolve_of_ne_zero _ _ hraw]
    exact .inr (noNewRejection_recordClamp _ s)
  | pack => exact .inr (noNewRejection_recordOverflow s)
  | clrstat m => exact .inr (noNewRejection_clearSticky s.sticky m)
  | write => rw [writeImages_spec]; exact .inr (.refl s.sticky)
  | nop | setmode | setovr | clrovr | setfld | clrstg | wrstg | rdres | rdstat => exact .inr (.refl s.sticky)

/-- Settles O51: a rejecting bit that is new was raised by a command that did nothing else, and a raise sets one bit. -/
theorem rejectedCommandHasNoOtherEffect : Obligations.RejectedCommandHasNoOtherEffect := by
  intro s t i e hexec hrej hclear hset
  rcases (commandEffect_of_exec hexec).rejects_or_noNewRejection with ⟨e', rfl⟩ | hnone
  · have hraised : (setSticky s.sticky e').getLsbD e.code = true := hset
    have heq : e' = e := by simpa [getLsbD_setSticky, hclear] using hraised
    rw [heq]
    rfl
  · exact absurd (hnone e hrej hset) (Bool.eq_false_iff.1 hclear)

/-! ### No event stops the block (obligation O12) -/

/-- A command reads nothing from the port and puts nothing on it. -/
theorem CommandEffect.port_eq {s t : State} {i : Instr} (h : CommandEffect s i t) : t.port = s.port := by
  cases h with
  | compute _ hraw | calcddr hraw =>
    rw [resolve_of_ne_zero _ _ hraw, State.withPlan_port, recordClamp]
    split <;> rfl
  | pack =>
    obtain ⟨b, hb⟩ := recordOverflow_eq_withSticky s
    rw [hb]
    rfl
  | write => rw [writeImages_spec]
  | rejected | nop | setmode | setovr | clrovr | setfld | clrstg | wrstg | rdres | rdstat | clrstat => rfl

/-- A step takes the oldest event off the port; with none there it has nothing to take. -/
theorem StepEffect.port_eq {s t : State} (h : StepEffect s t) : t.port = s.port.drop 1 := by
  cases h with
  | idle hport => rw [hport]; rfl
  | command hport _ heffect => rw [heffect.port_eq, hport]; rfl
  | reset hport | illegal hport => rw [hport]; rfl

/-- No event makes the step fault or refuse (R280, R283). -/
theorem step_total (s : State) : ∃ t : State, step s = .next t := by
  match hport : s.port with
  | [] => exact ⟨_, step_of_idle hport⟩
  | .reset :: _ => exact ⟨_, step_of_reset hport⟩
  | .command w :: rest =>
    rcases decodes_or_rejects w with ⟨i, hdecode⟩ | hw
    · rw [step_of_decode (accept_of_port hport) hdecode]
      exact exec_total i _
    · exact ⟨_, step_of_rejects hport hw⟩

/-- Settles O12, by induction on the number of steps. -/
theorem everyRunGoesOn : Obligations.EveryRunGoesOn := by
  intro n
  induction n with
  | zero => exact fun s => ⟨s, rfl, rfl⟩
  | succ n ih =>
    intro s
    obtain ⟨u, hstep⟩ := step_total s
    obtain ⟨t, hrun, hport⟩ := ih u
    refine ⟨t, (run_succ_of_step hstep).trans hrun, ?_⟩
    rw [hport, (stepEffect_of_step hstep).port_eq, List.drop_drop, Nat.add_comm]

end Sys2Proof.Machine

/-! Reset and hazards (70_reset_and_hazards.md): the overrides wait for the next commit (obligation O34), a commit
invalidates the images (obligation O58), and the reset event (obligation O9). -/

namespace Sys2Proof.Machine

/-! ### The overrides wait for the next commit (obligation O34) -/

/-- The command does not read `OVR` and keeps it: with other overrides it gives the same state but for them. -/
def IgnoresOvr (i : Instr) : Prop :=
  ∀ {s t : State} (o : PerCount OvrEntry), exec i s = .next t → exec i (s.withOvr o) = .next (t.withOvr o)

theorem recordOverflow_withOvr (s : State) (o : PerCount OvrEntry) :
    recordOverflow (s.withOvr o) = (recordOverflow s).withOvr o :=
  (apply_ite (State.withOvr · o) _ (raiseErr .fieldOvf s) s).symm

/-- PACK reads the committed counts, not the overrides. -/
theorem ignoresOvr_pack : IgnoresOvr .pack := by
  intro s t o h
  by_cases hplan : s.plan.valid = true
  · rw [exec_pack_of_valid hplan] at h
    cases h
    rw [exec_pack_of_valid (s := s.withOvr o) hplan, recordOverflow_withOvr]
    rfl
  · have hinvalid : s.plan.valid = false := Bool.eq_false_iff.2 hplan
    rw [exec_pack_of_invalid hinvalid] at h
    cases h
    exact exec_pack_of_invalid (s := s.withOvr o) hinvalid

/-- WRITE reads the images, not the overrides. -/
theorem ignoresOvr_write : IgnoresOvr .write := by
  intro s t o h
  by_cases himg : s.imgValid = true
  · rw [exec_write_of_valid himg] at h
    cases h
    exact exec_write_of_valid (s := s.withOvr o) himg
  · rw [exec_write_of_invalid himg] at h
    cases h
    exact exec_write_of_invalid (s := s.withOvr o) himg

theorem execAll_withOvr {is : List Instr} (his : ∀ i ∈ is, IgnoresOvr i) {s t : State} (o : PerCount OvrEntry)
    (h : execAll is s = .next t) : execAll is (s.withOvr o) = .next (t.withOvr o) := by
  induction is generalizing s with
  | nil => cases h; rfl
  | cons i is ih =>
    obtain ⟨hi, his⟩ := List.forall_mem_cons.1 his
    obtain ⟨u, hu⟩ := exec_total i s
    rw [execAll_cons hu] at h
    rw [execAll_cons (hi o hu)]
    exact ih his h

theorem ignoresOvr_packWrite : ∀ i ∈ [Instr.pack, Instr.write], IgnoresOvr i :=
  List.forall_mem_cons.2 ⟨ignoresOvr_pack, List.forall_mem_singleton.2 ignoresOvr_write⟩

/-- SETOVR and CLROVR replace `OVR` (R201, R202). -/
theorem eq_withOvr_of_exec {s t : State} {i : Instr} (hi : (∃ q x, i = .setovr q x) ∨ ∃ g, i = .clrovr g)
    (h : exec i s = .next t) : t = s.withOvr t.ovr := by
  rcases hi with ⟨q, x, rfl⟩ | ⟨g, rfl⟩ <;> cases h <;> rfl

/-- Settles O34: the command replaces `OVR`, which neither PACK nor WRITE reads. -/
theorem overridesWaitForTheNextCommit : Obligations.OverridesWaitForTheNextCommit := by
  intro s t u v i hi hexec
  have ht := eq_withOvr_of_exec hi hexec
  refine ⟨ht, fun hu hv => ?_⟩
  have hv' := execAll_withOvr ignoresOvr_packWrite t.ovr hu
  rw [← ht, hv] at hv'
  cases hv'
  rfl

/-! ### A commit invalidates the images (obligation O58) -/

theorem resolve_imgValid (pclk : Nat) {raw : Nat} (s : State) (hraw : raw ≠ 0) :
    (resolve pclk raw s).imgValid = false := by
  rw [resolve_of_ne_zero pclk s hraw, State.withPlan_imgValid]

/-- A COMPUTE or CALCDDR that commits invalidates the images (R132). -/
theorem imgValid_of_commits {s t : State} {i : Instr} (h : exec i s = .next t)
    (hi : (i = .compute ∧ s.mode.valid = true ∧ rawDdr s.params s.mode ≠ 0) ∨ ∃ raw : Nat, i = .calcddr raw ∧ raw ≠ 0) :
    t.imgValid = false := by
  rcases hi with ⟨rfl, hmode, hraw⟩ | ⟨raw, rfl, hraw⟩
  · rw [exec_compute_of_valid hmode] at h
    cases h
    exact resolve_imgValid _ s hraw
  · rw [exec_calcddr] at h
    cases h
    exact resolve_imgValid 0 s hraw

/-- A COMPUTE or CALCDDR that does not commit raises its error and does nothing else (R284, R285). -/
theorem exec_of_not_commits {s : State} {i : Instr}
    (hi : (i = .compute ∧ (s.mode.valid = false ∨ rawDdr s.params s.mode = 0)) ∨ i = .calcddr 0) :
    ∃ e : ErrBit, exec i s = .next (raiseErr e s) := by
  rcases hi with ⟨rfl, hreject⟩ | rfl
  · by_cases hmode : s.mode.valid = true
    · have hraw := hreject.resolve_left (ne_false_of_eq_true hmode)
      exact ⟨.ddrZero, exec_compute_of_rawDdr_zero hmode hraw⟩
    · exact ⟨.noMode, exec_compute_of_invalid hmode⟩
  · exact ⟨.ddrZero, congrArg Host.Outcome.next (resolve_zero 0 s)⟩

/-- Settles O58: a commit clears `IMG_VALID`, which WRITE requires; a raise touches the sticky bits only. -/
theorem commitInvalidatesTheImages : Obligations.CommitInvalidatesTheImages := by
  intro s t i hexec
  refine ⟨fun hi => ?_, fun hi => ?_⟩
  · have himg := imgValid_of_commits hexec hi
    exact ⟨himg, exec_write_of_invalid (Bool.eq_false_iff.1 himg)⟩
  · obtain ⟨e, he⟩ := exec_of_not_commits hi
    rw [he] at hexec
    cases hexec
    exact ⟨rfl, rfl⟩

/-! ### The reset event (obligation O9) -/

/-- The status of a block just reset does not depend on what it held before, so it is that of `State.reset`. -/
theorem statusWord_resetBlock (s : State) : statusWord (resetBlock s) = 0#32 :=
  calc statusWord (resetBlock s)
    _ = statusWord State.reset := rfl
    _ = 0#32 := by decide

/-- Settles O9. -/
theorem resetEventResetsTheBlock : Obligations.ResetEventResetsTheBlock :=
  fun s rest hport => ⟨resetBlock (s.withPort rest), step_of_reset hport, statusWord_resetBlock _, rfl⟩

end Sys2Proof.Machine
